-- ==== Sys2Proof/Word.lean ====
section
/-! DEFINITION. The unit of every frame buffer and of both streams. -/

namespace Sys2Proof

/-- The unsigned 8-bit byte, bit 0 least significant (00_scope.md R7, 20_memory.md R31). -/
abbrev Byte := BitVec 8

end Sys2Proof
end

