-- ==== Sys2Proof/Config.lean ====
section
/-! DEFINITION. The implementation parameters of 00_scope.md R6 and the free values the environment supplies. -/

namespace Sys2Proof

/-- The parameters that R6 leaves OPEN, which the model takes as an argument (D3): fixed for a machine, written by nothing. -/
structure Params where
  /-- `AXIS_W`, the width of a drive-axis input in bits (R6). -/
  axisW : Nat
  /-- `AXIS_ONE`, the integer that stands for axis value 1.0 (R6). -/
  axisOne : Nat
deriving DecidableEq, Repr, Inhabited

end Sys2Proof

namespace Sys2Proof.Config

/-- The default instantiation of R6 and D3; the parameters in force stand beside the state's fields, log 1 and 2. -/
def defaultParams : Params := ⟨16, 16384⟩

/-- `FRAME_LEN` (R6, R66). -/
abbrev frameLen : Nat := 8

/-- `DRIVE_MIN` (R6). -/
abbrev driveMin : Int := 0

/-- `DRIVE_MID` (R6). -/
abbrev driveMid : Int := 10

/-- `DRIVE_MAX` (R6). -/
abbrev driveMax : Int := 20

/-- `DRIVE_GAIN` (R6). -/
abbrev driveGain : Nat := 10

/-- `SEV_THRESHOLD` (R6, R20). -/
abbrev sevThreshold : Nat := 2

/-- How many values `Draw(0, 254)` can answer: `V_MIN = 0` to `V_MAX = 254` (R6). -/
abbrev drawCount : Nat := 255

/-- FREE VALUE: the answer of the verification-byte generator to the `n`-th unscripted question, any of 0..254
(R105, U1), log 7. -/
opaque freeDraw : Nat → Fin drawCount

/-- FREE VALUE: the outcome of an unscripted write: `none` it completes, `some j` it stops after `j` bytes
(R36, U5), log 8. -/
opaque freeWrite : Nat → Option (Fin frameLen)

/-- FREE VALUE: how many bytes an unscripted read would like to return, before the bounds of R37 are applied (U6), log 9. -/
opaque freeRead : Nat → Nat

/-- FREE VALUE: a byte of a frame buffer after the reset input (R25, R140, U2), log 5. -/
opaque freeByte : Nat → Byte

end Sys2Proof.Config
end

