-- ==== Sys2Proof/Syntax.lean ====
section
/-! DEFINITION. The records of 30_encoding.md and the operations: one constructor of `Instr` per row of
spec/opcode_table.json. -/

namespace Sys2Proof

/-- A drive-axis input: a signed integer, of `AXIS_W` bits where `axisFits` holds (R59, R71). -/
abbrev Axis := Int

/-- A verification draw, 0..254 (R55, R92). -/
abbrev Draw := Fin Config.drawCount

/-- A frame: eight bytes, offset 0 first (R7, R66). -/
structure Frame where
  b0 : Byte
  b1 : Byte
  b2 : Byte
  b3 : Byte
  b4 : Byte
  b5 : Byte
  b6 : Byte
  b7 : Byte
deriving DecidableEq, Repr, Inhabited

/-- `F-SNAP`, the snapshot record (R59). -/
structure Snapshot where
  axisL : Axis
  axisR : Axis
  augRFwd : Bool
  augRRev : Bool
  augLFwd : Bool
  augLRev : Bool
  dumpLower : Bool
  dumpTilt : Bool
  railRight : Bool
  railLeft : Bool
  railUp : Bool
  railDown : Bool
  toggleBtn : Bool
deriving DecidableEq, Repr, Inhabited

/-- The seven bytes ENCODE returns, offsets 0 to 6 of `F-CMD` (R51, R70, R79). -/
structure Command where
  leftDrive : Byte
  rightDrive : Byte
  augerDrive : Byte
  rail : Byte
  dump : Byte
  reserved1 : Byte
  reserved2 : Byte
deriving DecidableEq, Repr, Inhabited

/-- `F-STAT`, the status record, fields in the record's own order (R60). -/
structure StatusRecord where
  leftVel : Byte
  rightVel : Byte
  rail : Byte
  auger : Byte
  dump : Byte
  reserved1 : Byte
  reserved2 : Byte
  verification : Byte
deriving DecidableEq, Repr, Inhabited

/-- `F-WARN`, the severity of a warning (R61). -/
inductive Severity where
  | low
  | high
deriving DecidableEq, Repr, Inhabited

/-- The outcome of `TxWriteAll`: `ok`, or `fail j` after `j` bytes, `j` in 0..7 (R36). -/
inductive WriteOutcome where
  | ok
  | fail (j : Fin Config.frameLen)
deriving DecidableEq, Repr, Inhabited

/-- The rows of spec/opcode_table.json, without operands. -/
inductive Row where
  | cycleStart | send | recv | verify | deliver | retry
  | encode | drive | encLdrive | encRdrive | pair | encAuger | encToggle | encRail | encZero | decode
deriving DecidableEq, Repr

/-- An operation with its operands. The first six are the transitions of the exchange state machine, with the answers the
environment gives them (R90: deterministic given its inputs); the others are the packing functions. -/
inductive Instr where
  /-- CYCLE_START, with the snapshot accepted (R91). -/
  | cycleStart (sn : Snapshot)
  /-- SEND, with the draw and the write outcome (R92). -/
  | send (v : Draw) (o : WriteOutcome)
  /-- RECV, with the number of bytes the transport would return (R37, R93). -/
  | recv (k : Nat)
  /-- VERIFY (R94). -/
  | verify
  /-- DELIVER (R96). -/
  | deliver
  /-- RETRY (R95). -/
  | retry
  /-- ENCODE (R79). -/
  | encode (sn : Snapshot)
  /-- DRIVE (R71). -/
  | drive (n : Axis)
  /-- ENC.LDRIVE (R72). -/
  | encLdrive (sn : Snapshot)
  /-- ENC.RDRIVE (R78). -/
  | encRdrive (sn : Snapshot)
  /-- PAIR (R73). -/
  | pair (m0 m1 : Bool)
  /-- ENC.AUGER (R74). -/
  | encAuger (sn : Snapshot)
  /-- ENC.TOGGLE (R75). -/
  | encToggle (sn : Snapshot)
  /-- ENC.RAIL, with the value ENC.TOGGLE returned for the same snapshot (R76). -/
  | encRail (sn : Snapshot) (latch' : Bool)
  /-- ENC.ZERO (R77). -/
  | encZero
  /-- DECODE, with the eight bytes of a reply (R110). -/
  | decode (r : Frame)
deriving DecidableEq, Repr

/-- The row an operation belongs to. -/
def Instr.row : Instr → Row
  | .cycleStart _ => .cycleStart
  | .send _ _ => .send
  | .recv _ => .recv
  | .verify => .verify
  | .deliver => .deliver
  | .retry => .retry
  | .encode _ => .encode
  | .drive _ => .drive
  | .encLdrive _ => .encLdrive
  | .encRdrive _ => .encRdrive
  | .pair _ _ => .pair
  | .encAuger _ => .encAuger
  | .encToggle _ => .encToggle
  | .encRail _ _ => .encRail
  | .encZero => .encZero
  | .decode _ => .decode

/-- The rows that are dispatched by the state machine; the others are invoked (R63). -/
def Row.isTransition : Row → Bool
  | .cycleStart | .send | .recv | .verify | .deliver | .retry => true
  | .encode | .drive | .encLdrive | .encRdrive | .pair | .encAuger | .encToggle | .encRail | .encZero | .decode => false

end Sys2Proof
end

