-- ==== Sys2Proof/WellFormed.lean ====
section
/-! DEFINITION. Which operations, launch parameters and invocations are well formed. Most bounds hold by the types of
`Syntax.lean` (a draw is below 255, a failed write has emitted fewer than eight bytes). -/

namespace Sys2Proof

/-- Whether an axis is a two's complement integer of `w` bits: `-2^(w-1) <= n < 2^(w-1)` (R6, R59). -/
def axisFits (w : Nat) (n : Int) : Bool := decide (-(2 ^ w : Int) ≤ 2 * n) && decide (2 * n < (2 ^ w : Int))

/-- Both axes of a snapshot have `w` bits (R59). -/
def Snapshot.fits (w : Nat) (sn : Snapshot) : Bool := axisFits w sn.axisL && axisFits w sn.axisR

/-- The operands are in range where `AXIS_W` is `w`: axes of `w` bits (R59), and no read of more than the eight bytes of a
frame (R37: `k <= max <= 8`). -/
def Instr.wellFormed (w : Nat) : Instr → Bool
  | .cycleStart sn | .encode sn | .encLdrive sn | .encRdrive sn | .encAuger sn | .encToggle sn | .encRail sn _ => sn.fits w
  | .drive n => axisFits w n
  | .recv k => decide (k ≤ Config.frameLen)
  | .send _ _ | .verify | .deliver | .retry | .pair _ _ | .encZero | .decode _ => true

/-- The constraint of R6 on the launch parameters: `1 <= AXIS_ONE < 2^(AXIS_W-1)`. -/
def Params.wellFormed (p : Params) : Bool := decide (1 ≤ p.axisOne) && decide (p.axisOne < 2 ^ (p.axisW - 1))

/-- Only a packing function is invoked; a transition is dispatched (R63). -/
def invocationWellFormed (w : Nat) (i : Instr) : Bool := i.wellFormed w && !i.row.isTransition

end Sys2Proof
end

