-- ==== Sys2Proof/Decode.lean ====
section
/-! DEFINITION. The dispatch word of 30_encoding.md R63, the operation codes built on it, their decoder (total,
rejecting by name) and their encoder, and the frames as sequences of bytes. The code of a packing function and the
layout of operands are the model's own (log 14): the spec dispatches no function and gives records no bit layout. -/

namespace Sys2Proof

/-- Why a code stands for no operation. -/
inductive Reject where
  /-- `W` = `101x`: `Fatal`, no operation is enabled (R63, R98). -/
  | fatalState
  /-- `W` = `11xx`: no such state exists (R63, U19). -/
  | unreachableState
  /-- A first byte that is neither a dispatch word nor a function's code. -/
  | unknownCode
  /-- Fewer bytes than the operation's operands need. -/
  | truncated
  /-- A draw of 255, which `Draw(0, 254)` never answers (R55). -/
  | drawOutOfRange
  /-- A write outcome that is neither `ok` nor `fail j` with `j` in 0..7 (R36). -/
  | outcomeOutOfRange
  /-- A read of more than eight bytes (R37). -/
  | readTooLong
  /-- An operand byte with a bit set that carries no field. -/
  | reservedBits
deriving DecidableEq, Repr

/-- `W[3:0] = {ST[2:0], FULL}` to the transition it enables: the table of R63. -/
def decodeDispatch (w : BitVec 4) : Except Reject Row :=
  match w.toNat with
  | 0x0 | 0x1 => .ok .cycleStart
  | 0x2 | 0x3 => .ok .send
  | 0x4 => .ok .recv
  | 0x5 => .ok .verify
  | 0x6 | 0x7 => .ok .deliver
  | 0x8 | 0x9 => .ok .retry
  | 0xA | 0xB => .error .fatalState
  | _ => .error .unreachableState

/-- The first byte of an operation's code: for a transition its `match` value in spec/opcode_table.json, for a function a
code of the model's own above every dispatch word (log 14). -/
def Row.code : Row → Nat
  | .cycleStart => 0x00
  | .send => 0x02
  | .recv => 0x04
  | .verify => 0x05
  | .deliver => 0x06
  | .retry => 0x08
  | .encode => 0x10
  | .drive => 0x11
  | .encLdrive => 0x12
  | .encRdrive => 0x13
  | .pair => 0x14
  | .encAuger => 0x15
  | .encToggle => 0x16
  | .encRail => 0x17
  | .encZero => 0x18
  | .decode => 0x19

/-- The row a first byte selects. -/
def decodeRow (b : Byte) : Except Reject Row :=
  if b.toNat < 16 then decodeDispatch (BitVec.ofNat 4 b.toNat)
  else
    match b.toNat with
    | 0x10 => .ok .encode
    | 0x11 => .ok .drive
    | 0x12 => .ok .encLdrive
    | 0x13 => .ok .encRdrive
    | 0x14 => .ok .pair
    | 0x15 => .ok .encAuger
    | 0x16 => .ok .encToggle
    | 0x17 => .ok .encRail
    | 0x18 => .ok .encZero
    | 0x19 => .ok .decode
    | _ => .error .unknownCode

/-- A bit field from its bits, bit 0 first (R7, R57). -/
def packBits : List Bool → Nat
  | [] => 0
  | b :: bs => b.toNat + 2 * packBits bs

/-- The bytes of a frame in offset order (R32). -/
def Frame.toList (f : Frame) : List Byte := [f.b0, f.b1, f.b2, f.b3, f.b4, f.b5, f.b6, f.b7]

/-- The seven bytes of a command in offset order (R41, R79). -/
def Command.toList (c : Command) : List Byte :=
  [c.leftDrive, c.rightDrive, c.augerDrive, c.rail, c.dump, c.reserved1, c.reserved2]

/-- The first `n` bytes of a number, least significant first. -/
def bytesOfNat : Nat → Nat → List Byte
  | 0, _ => []
  | n + 1, w => BitVec.ofNat 8 w :: bytesOfNat n (w / 256)

/-- The number of a byte list, least significant byte first. -/
def natOfBytes : List Byte → Nat
  | [] => 0
  | b :: bs => b.toNat + 256 * natOfBytes bs

/-- `sext`: an axis input of `w` bits read as a signed integer (R8). An axis that fits is itself. -/
def sext (w : Nat) (n : Axis) : Int := (BitVec.ofInt w n).toInt

/-- How many operand bytes an axis of `w` bits takes (log 14). -/
def axisLen (w : Nat) : Nat := (w + 7) / 8

/-- The operand bytes of an axis of `w` bits: two's complement, low byte first, padded with 0 bits (log 14). -/
def axisBytes (w : Nat) (n : Axis) : List Byte := bytesOfNat (axisLen w) (BitVec.ofInt w n).toNat

/-- An axis of `w` bits at the head of a byte list, with the bytes after it (log 14). -/
def takeAxis (w : Nat) (bs : List Byte) : Except Reject (Axis × List Byte) :=
  if bs.length < axisLen w then .error .truncated
  else if natOfBytes (bs.take (axisLen w)) < 2 ^ w then
    .ok (sext w (natOfBytes (bs.take (axisLen w))), bs.drop (axisLen w))
  else .error .reservedBits

/-- The booleans of a snapshot in the order of R59. -/
def Snapshot.flags (sn : Snapshot) : List Bool :=
  [sn.augRFwd, sn.augRRev, sn.augLFwd, sn.augLRev, sn.dumpLower, sn.dumpTilt, sn.railRight, sn.railLeft,
    sn.railUp, sn.railDown, sn.toggleBtn]

/-- The operand bytes of a snapshot: both axes, then the eleven booleans from bit 0 of the next byte up (log 14). -/
def snapshotBytes (w : Nat) (sn : Snapshot) : List Byte :=
  axisBytes w sn.axisL ++ axisBytes w sn.axisR
    ++ [BitVec.ofNat 8 (packBits (sn.flags.take 8)), BitVec.ofNat 8 (packBits (sn.flags.drop 8))]

/-- A snapshot from its axes and its two bytes of booleans; bits 7:3 of the last carry nothing and are 0 (log 14). -/
def snapshotOf (l r : Axis) (f g : Byte) : Except Reject Snapshot :=
  if g.toNat < 8 then
    .ok { axisL := l, axisR := r
          augRFwd := f.getLsbD 0, augRRev := f.getLsbD 1, augLFwd := f.getLsbD 2, augLRev := f.getLsbD 3
          dumpLower := f.getLsbD 4, dumpTilt := f.getLsbD 5, railRight := f.getLsbD 6, railLeft := f.getLsbD 7
          railUp := g.getLsbD 0, railDown := g.getLsbD 1, toggleBtn := g.getLsbD 2 }
  else .error .reservedBits

/-- The booleans of a snapshot whose axes are read, at the head of a byte list, with the bytes after them. -/
def takeFlags (l r : Axis) : List Byte → Except Reject (Snapshot × List Byte)
  | f :: g :: rest =>
    match snapshotOf l r f g with
    | .ok sn => .ok (sn, rest)
    | .error e => .error e
  | _ => .error .truncated

/-- A snapshot at the head of a byte list, with the bytes after it. -/
def takeSnapshot (w : Nat) (bs : List Byte) : Except Reject (Snapshot × List Byte) :=
  match takeAxis w bs with
  | .error e => .error e
  | .ok (l, bs1) =>
    match takeAxis w bs1 with
    | .error e => .error e
    | .ok (r, bs2) => takeFlags l r bs2

/-- An operation whose operand is a snapshot, from the bytes after its first. -/
def decodeSnapshot (w : Nat) (mk : Snapshot → Instr) (bs : List Byte) : Except Reject (Instr × List Byte) :=
  match takeSnapshot w bs with
  | .ok (sn, rest) => .ok (mk sn, rest)
  | .error e => .error e

/-- The write outcome an operand byte stands for: 0 is `ok`, `j + 1` is `fail j` (log 14). -/
def outcomeOfByte (b : Byte) : Except Reject WriteOutcome :=
  if b.toNat = 0 then .ok .ok
  else if h : b.toNat - 1 < Config.frameLen then .ok (.fail ⟨b.toNat - 1, h⟩)
  else .error .outcomeOutOfRange

/-- The operand byte of a write outcome (log 14). -/
def outcomeByte : WriteOutcome → Byte
  | .ok => 0
  | .fail j => BitVec.ofNat 8 (j.val + 1)

/-- SEND's operands: the draw, then the write outcome. -/
def decodeSend : List Byte → Except Reject (Instr × List Byte)
  | v :: b :: rest =>
    if h : v.toNat < Config.drawCount then
      match outcomeOfByte b with
      | .ok o => .ok (.send ⟨v.toNat, h⟩ o, rest)
      | .error e => .error e
    else .error .drawOutOfRange
  | _ => .error .truncated

/-- RECV's operand: the number of bytes the transport would return. -/
def decodeRecv : List Byte → Except Reject (Instr × List Byte)
  | k :: rest => if k.toNat ≤ Config.frameLen then .ok (.recv k.toNat, rest) else .error .readTooLong
  | _ => .error .truncated

/-- DRIVE's operand: one axis. -/
def decodeDrive (w : Nat) (bs : List Byte) : Except Reject (Instr × List Byte) :=
  match takeAxis w bs with
  | .ok (n, rest) => .ok (.drive n, rest)
  | .error e => .error e

/-- PAIR's operands: `m0` in bit 0 and `m1` in bit 1 of one byte. -/
def decodePair : List Byte → Except Reject (Instr × List Byte)
  | m :: rest => if m.toNat < 4 then .ok (.pair (m.getLsbD 0) (m.getLsbD 1), rest) else .error .reservedBits
  | _ => .error .truncated

/-- ENC.RAIL's operands: the snapshot, then `LATCH'` in bit 0 of one byte. -/
def decodeRail (w : Nat) (bs : List Byte) : Except Reject (Instr × List Byte) :=
  match takeSnapshot w bs with
  | .ok (sn, l :: rest) =>
    if l.toNat < 2 then .ok (.encRail sn (l.getLsbD 0), rest) else .error .reservedBits
  | .ok (_, []) => .error .truncated
  | .error e => .error e

/-- DECODE's operand: the eight bytes of a reply in offset order (`F-RPL`, R56). -/
def decodeReply : List Byte → Except Reject (Instr × List Byte)
  | a :: b :: c :: d :: e :: f :: g :: h :: rest => .ok (.decode ⟨a, b, c, d, e, f, g, h⟩, rest)
  | _ => .error .truncated

/-- An operation of a row, from the bytes after its first; `w` is `AXIS_W`. -/
def decodeOperands (w : Nat) (r : Row) (bs : List Byte) : Except Reject (Instr × List Byte) :=
  match r with
  | .cycleStart => decodeSnapshot w .cycleStart bs
  | .send => decodeSend bs
  | .recv => decodeRecv bs
  | .verify => .ok (.verify, bs)
  | .deliver => .ok (.deliver, bs)
  | .retry => .ok (.retry, bs)
  | .encode => decodeSnapshot w .encode bs
  | .drive => decodeDrive w bs
  | .encLdrive => decodeSnapshot w .encLdrive bs
  | .encRdrive => decodeSnapshot w .encRdrive bs
  | .pair => decodePair bs
  | .encAuger => decodeSnapshot w .encAuger bs
  | .encToggle => decodeSnapshot w .encToggle bs
  | .encRail => decodeRail w bs
  | .encZero => .ok (.encZero, bs)
  | .decode => decodeReply bs

/-- The decoder: the operation at the head of a byte list, with the bytes after it, or why there is none; `w` is
`AXIS_W`. -/
def decodeInstr (w : Nat) : List Byte → Except Reject (Instr × List Byte)
  | [] => .error .truncated
  | b :: bs =>
    match decodeRow b with
    | .ok r => decodeOperands w r bs
    | .error e => .error e

/-- The operand bytes of an operation. -/
def operandBytes (w : Nat) : Instr → List Byte
  | .cycleStart sn => snapshotBytes w sn
  | .send v o => [BitVec.ofNat 8 v.val, outcomeByte o]
  | .recv k => [BitVec.ofNat 8 k]
  | .verify => []
  | .deliver => []
  | .retry => []
  | .encode sn => snapshotBytes w sn
  | .drive n => axisBytes w n
  | .encLdrive sn => snapshotBytes w sn
  | .encRdrive sn => snapshotBytes w sn
  | .pair m0 m1 => [BitVec.ofNat 8 (packBits [m0, m1])]
  | .encAuger sn => snapshotBytes w sn
  | .encToggle sn => snapshotBytes w sn
  | .encRail sn l => snapshotBytes w sn ++ [BitVec.ofNat 8 (packBits [l])]
  | .encZero => []
  | .decode r => r.toList

/-- The encoder: the row's code, then the operand bytes. -/
def encodeInstr (w : Nat) (i : Instr) : List Byte := BitVec.ofNat 8 i.row.code :: operandBytes w i

/-- The operation a word of spec/opcode_table.json's own numbering stands for. One byte: a dispatch word (or a code of the
model's own), its operand bytes 0. Three bytes: ENC.ZERO's pattern. Eight bytes: DECODE's pattern, whose 64 bits are its
operand, offset 0 in bits 7:0: R51 and R56 write a frame as a pattern with offset 0 leftmost and give it no number, so that
this place is the model's choice, log 24. The other functions' patterns are what they PRODUCE; a byte cannot tell them
apart (log 15). -/
def decodeTableWord (nbits w : Nat) : Option Instr :=
  if nbits = 24 then
    if w = 0 then some .encZero else none
  else if nbits = 64 then
    match decodeReply (bytesOfNat 8 w) with
    | .ok (i, _) => some i
    | .error _ => none
  else
    match decodeInstr Config.defaultParams.axisW (bytesOfNat (nbits / 8) w ++ List.replicate 8 0) with
    | .ok (i, _) => some i
    | .error _ => none

/-- The produced bytes as patterns of R51 and spec/opcode_table.json: the bits the row fixes to 0 are 0. -/
def matchesPattern (r : Row) (b : Byte) : Bool :=
  match r with
  | .drive | .encLdrive | .encRdrive | .encRail => b &&& 0xE0 == 0
  | .encAuger => b &&& 0xF0 == 0
  | .encZero => b == 0
  | .cycleStart | .send | .recv | .verify | .deliver | .retry | .encode | .pair | .encToggle | .decode => true

end Sys2Proof
end

