-- ==== Sys2Proof/Machine/State.lean ====
section
/-! DEFINITION. The state of the block (10_state.md), of the ports and streams the spec gives its environment, and of the
event script; why a step can stop; the state after reset. -/

namespace Sys2Proof.Machine

/-- `ST`, the exchange state (R13). -/
inductive ExState where
  | idle
  | sending
  | awaitingReply
  | verified
  | retrying
  | fatal
deriving DecidableEq, Repr, Inhabited

/-- An output event: a `Warn` or a `Sink` (R8, R60, R61). -/
inductive Event where
  | warn (sev : Severity)
  | sink (r : StatusRecord)
deriving DecidableEq, Repr

/-- One entry of the event script: a move of an environment agent, or its answer to a request of the block (R9, R68).
DESIGN CHOICE: log 6. -/
inductive EnvInput where
  /-- The Input Snapshot Source offers a snapshot in place of the one it offered before, or withdraws it (R97, U17). -/
  | offer (o : Option Snapshot)
  /-- Bytes arrive at the tail of `RXQ` (R46). -/
  | arrive (c : List Byte)
  /-- The reset input (R140). -/
  | reset
  /-- The answer to the next `Draw(0, 254)` (R92, R105). -/
  | draw (v : Draw)
  /-- The outcome of the next `TxWriteAll` (R36). -/
  | wr (o : WriteOutcome)
  /-- How many bytes the next `RxRead` would return (R37). -/
  | read (k : Nat)
  /-- The environment makes no move until the block has taken its turn once, so that the next move can land right after any
  operation of the block (R9, R46). -/
  | turn
deriving DecidableEq, Repr

/-- What the environment does after the last line of its script: R9, R46 and R99 set no end to its moves. DESIGN CHOICE:
log 25. -/
inductive ScriptEnd where
  /-- No further move (R68's finite scripts, R102). -/
  | silent
  /-- These lines, and then the same again, for ever: a loop without an end, such as the livelock of R99. -/
  | again (es : List EnvInput)
  /-- Any lines, for ever: the free value `Config.freeLines`. -/
  | free
deriving DecidableEq, Repr

end Sys2Proof.Machine

namespace Sys2Proof.Config

/-- FREE VALUE: the next lines of an environment that goes on for ever with any moves (R46), log 25. -/
opaque freeLines : Nat → List Machine.EnvInput

end Sys2Proof.Config

namespace Sys2Proof.Machine

/-- The value a packing function returns to its caller (R70 to R79, R110). -/
inductive FnResult where
  | byte (b : Byte)
  | pair (o0 o1 : Bool)
  | latch (t : Bool)
  | zeros (dump reserved1 reserved2 : Byte)
  | command (c : Command)
  | status (r : StatusRecord)
deriving DecidableEq, Repr

/-- The state. -/
structure State where
  /-- `PKT[0..7]`, the outgoing Command Packet (R11). -/
  pkt : Frame
  /-- `RXBUF[0..7]`, the Reply Packet being accumulated (R12). -/
  rxbuf : Frame
  /-- `ST` (R13, R19). -/
  st : ExState
  /-- `RXCNT`, an integer 0..8 (R14). -/
  rxcnt : Nat
  /-- `RETRY`, an unbounded natural number (R15). -/
  retry : Nat
  /-- `LATCH` (R16). -/
  latch : Bool
  /-- `PREV` (R17). -/
  prev : Bool
  /-- `RXQ`, the transport's receive queue, head first (R22, R46). -/
  rxq : List Byte
  /-- The TX stream, oldest byte first (R36, R46). -/
  tx : List Byte
  /-- The `Warn` and `Sink` events, oldest first (R8, R42). -/
  events : List Event
  /-- The snapshot port: the snapshot now offered (R30, R128). -/
  offer : Option Snapshot
  /-- The model's own: the environment's moves and answers still to come (R68, log 6). -/
  script : List EnvInput
  /-- The model's own: what the environment does once the script has no more lines (log 25). -/
  ending : ScriptEnd
  /-- The model's own: how many free values have been taken (log 7). -/
  freeCount : Nat
  /-- The model's own: a packing function presented on its own, outside a cycle (log 13). -/
  invoke : Option Instr
  /-- The model's own: what the last function presented on its own returned (log 13). -/
  ret : Option FnResult
  /-- No state of the block (R9, R21): the parameters of R6 the model takes as an argument, which nothing writes (log 2). -/
  params : Params
deriving DecidableEq, Repr

/-- Why the machine stops with a fault. -/
inductive Fault where
  /-- Raised by the step in `Fatal`: a transport write did not complete and no operation is enabled (R98, R121).
  Safe: a fault refutes every claim of completion. -/
  | eWrite
  /-- Raised by a transition run outside its enabling condition, which is no step of the block (R63, R91 to R96).
  Safe; log 12. -/
  | notEnabled
deriving DecidableEq, Repr

/-- Why an operation has no meaning. -/
inductive Refusal where
  /-- Raised by an arm of `exec` whose operation is not modelled; no arm does. Safe. -/
  | notModelled (mnemonic : String)
deriving DecidableEq, Repr

/-- The state after reset (R25). PKT, RXBUF, RXQ, the outputs, the parameters and the model's own fields are
DESIGN CHOICE: log 1, 2, 3, 4, 18, 19, 22, 25. -/
def State.reset : State where
  pkt := ⟨0, 0, 0, 0, 0, 0, 0, 0⟩
  rxbuf := ⟨0, 0, 0, 0, 0, 0, 0, 0⟩
  st := .idle
  rxcnt := 0
  retry := 0
  latch := false
  prev := false
  rxq := []
  tx := []
  events := []
  offer := none
  script := []
  ending := .silent
  freeCount := 0
  invoke := none
  ret := none
  params := Config.defaultParams

end Sys2Proof.Machine
end

