-- ==== Sys2Proof/Machine/Flags.lean ====
section
/-! DEFINITION. The derived flags of 10_state.md R20, the dispatch word of 30_encoding.md R63 and the conditions of
60_exceptions.md R120: computed, never stored. -/

namespace Sys2Proof.Machine

/-- `FULL = (RXCNT == 8)` (R20 a). -/
def full (s : State) : Bool := s.rxcnt == Config.frameLen

/-- `EDGE = btn & ~PREV` (R20 b). -/
def edge (btn prev : Bool) : Bool := btn && !prev

/-- `MATCH = (RXBUF[7] == PKT[7])` (R20 c). -/
def replyMatches (s : State) : Bool := s.rxbuf.b7 == s.pkt.b7

/-- `SEV`, from the incremented retry counter (R20 d). -/
def severity (counter : Nat) : Severity := if counter < Config.sevThreshold then .low else .high

/-- The 3-bit code of a state (R63, D16). -/
def stateCode : ExState → BitVec 3
  | .idle => 0
  | .sending => 1
  | .awaitingReply => 2
  | .verified => 3
  | .retrying => 4
  | .fatal => 5

/-- The dispatch word `W[3:0] = {ST[2:0], FULL}` (R63). -/
def dispatchWord (s : State) : BitVec 4 := stateCode s.st ++ BitVec.ofBool (full s)

/-- The conditions the block itself meets (R120); `E_CONFIG` and `E_USAGE` arise outside it (R123, R126). -/
inductive Condition where
  | eWrite
  | eMismatch
deriving DecidableEq, Repr

/-- The condition a state records: `ST` is the only record there is (R19, R120 to R122). -/
def condition (s : State) : Option Condition :=
  match s.st with
  | .fatal => some .eWrite
  | .retrying => some .eMismatch
  | .idle | .sending | .awaitingReply | .verified => none

end Sys2Proof.Machine
end

