-- ==== Sys2Proof/Machine/Operands.lean ====
section
/-! DEFINITION. Operand assembly (30_encoding.md R62) and the arithmetic of the packing functions: what the operations of
Encoder.lean, Exchange.lean and Decoder.lean are built from. -/

namespace Sys2Proof.Machine

/-- The signed rounded offset of DRIVE: `round(10 * n / S)`, ties away from zero, in exact integers (R71). -/
def driveOffset (one : Nat) (n : Int) : Int :=
  let m : Nat := (2 * Config.driveGain * n.natAbs + one) / (2 * one)
  if 0 ≤ n then (m : Int) else -(m : Int)

/-- DRIVE's value: the offset about the centre, clamped (R71, 90_conflicts.md C3). -/
def driveValue (one : Nat) (n : Int) : Int :=
  max Config.driveMin (min Config.driveMax (Config.driveMid + driveOffset one n))

/-- DRIVE of an axis, `sext` then the value as a byte (R71, R72, R78). -/
def driveByte (p : Params) (n : Axis) : Byte := BitVec.ofInt 8 (driveValue p.axisOne (sext p.axisW n))

/-- PAIR, the conflict policy of a control group (R73). -/
def pairOut (m0 m1 : Bool) : Bool × Bool := (m0 && !m1, m1 && !m0)

/-- `AUGER_DRIVE = {0000, l1, l0, r1, r0}` (R52, R74). -/
def augerByte (sn : Snapshot) : Byte :=
  let r := pairOut sn.augRFwd sn.augRRev
  let l := pairOut sn.augLFwd sn.augLRev
  BitVec.ofNat 8 (packBits [r.1, r.2, l.1, l.2])

/-- `LATCH' = LATCH ^ EDGE` (R75). -/
def latchNext (latch prev btn : Bool) : Bool := latch ^^ edge btn prev

/-- `RAIL = {000, LATCH', v1, v0, d1 | h1, d0 | h0}` (R53, R76). -/
def railByte (sn : Snapshot) (latch' : Bool) : Byte :=
  let d := pairOut sn.dumpLower sn.dumpTilt
  let h := pairOut sn.railRight sn.railLeft
  let v := pairOut sn.railUp sn.railDown
  BitVec.ofNat 8 (packBits [d.1 || h.1, d.2 || h.2, v.1, v.2, latch'])

/-- The constant of DUMP, reserved1 and reserved2 (R54, R77). -/
def zeroByte : Byte := 0

/-- The seven bytes of ENCODE, with the latch already updated for this snapshot (R79). -/
def encodeCommand (p : Params) (sn : Snapshot) (latch' : Bool) : Command where
  leftDrive := driveByte p sn.axisL
  rightDrive := driveByte p sn.axisR
  augerDrive := augerByte sn
  rail := railByte sn latch'
  dump := zeroByte
  reserved1 := zeroByte
  reserved2 := zeroByte

/-- DECODE: the record's fields from the reply's offsets 0, 1, 3, 2, 4, 5, 6, 7 (R41, R110). -/
def statusOf (r : Frame) : StatusRecord where
  leftVel := r.b0
  rightVel := r.b1
  rail := r.b3
  auger := r.b2
  dump := r.b4
  reserved1 := r.b5
  reserved2 := r.b6
  verification := r.b7

/-- A draw as the byte SEND stores at offset 7 (R55, R62 f). -/
def drawByte (v : Draw) : Byte := BitVec.ofNat 8 v.val

end Sys2Proof.Machine
end

