-- ==== Sys2Proof/Machine/Ops.lean ====
section
/-! DEFINITION. The named operations over registers and streams: the primitives of 00_scope.md R8, the entries of the
conditions of 60_exceptions.md, and reset. -/

namespace Sys2Proof.Machine

/-- The two frame-buffer spaces of R30. -/
inductive Space where
  | pkt
  | rxbuf
deriving DecidableEq, Repr

/-- A frame with the byte at one offset replaced; there is no offset beyond 7 (R30, R41). -/
def setByte (f : Frame) (i : Nat) (b : Byte) : Frame :=
  match i with
  | 0 => { f with b0 := b }
  | 1 => { f with b1 := b }
  | 2 => { f with b2 := b }
  | 3 => { f with b3 := b }
  | 4 => { f with b4 := b }
  | 5 => { f with b5 := b }
  | 6 => { f with b6 := b }
  | 7 => { f with b7 := b }
  | _ => f

/-- A frame with consecutive bytes written from an offset up. -/
def writeFrom (f : Frame) (addr : Nat) : List Byte → Frame
  | [] => f
  | b :: bs => writeFrom (setByte f addr b) (addr + 1) bs

/-- The buffer of a space. -/
def buffer (sp : Space) (s : State) : Frame :=
  match sp with
  | .pkt => s.pkt
  | .rxbuf => s.rxbuf

/-- The model's read of one byte: `none` where there is no such offset (R30). -/
def readByte (sp : Space) (a : Nat) (s : State) : Option Byte := (buffer sp s).toList[a]?

/-- `MemRead(space, addr, n)` (R8). -/
def memRead (sp : Space) (addr n : Nat) (s : State) : List Byte := ((buffer sp s).toList.drop addr).take n

/-- `MemWrite(space, addr, n, v)`, the bytes in offset order (R8). -/
def memWrite (sp : Space) (addr : Nat) (bytes : List Byte) (s : State) : State :=
  match sp with
  | .pkt => { s with pkt := writeFrom s.pkt addr bytes }
  | .rxbuf => { s with rxbuf := writeFrom s.rxbuf addr bytes }

/-- How many of eight bytes a write has put on the TX stream (R36). -/
def bytesEmitted : WriteOutcome → Nat
  | .ok => Config.frameLen
  | .fail j => j.val

/-- `TxWriteAll(bytes)`: all of them, or a prefix, appended in order to the TX stream (R36). -/
def txWriteAll (bytes : List Byte) (o : WriteOutcome) (s : State) : State :=
  { s with tx := s.tx ++ bytes.take (bytesEmitted o) }

/-- How many bytes `RxRead(max)` returns when the transport would return `k`: `0 <= k <= min(max, |RXQ|)` (R37). -/
def rxReadCount (max k : Nat) (s : State) : Nat := min k (min max s.rxq.length)

/-- The bytes `RxRead(max)` returns, in order (R37). -/
def rxReadBytes (max k : Nat) (s : State) : List Byte := s.rxq.take (rxReadCount max k s)

/-- What `RxRead(max)` does to `RXQ`: the bytes it returned are gone (R37, R40). -/
def rxReadRest (max k : Nat) (s : State) : State := { s with rxq := s.rxq.drop (rxReadCount max k s) }

/-- `emit` (R8). -/
def emit (e : Event) (s : State) : State := { s with events := s.events ++ [e] }

/-- `ST <- target` (R8, R13). -/
def goto (target : ExState) (s : State) : State := { s with st := target }

/-- ENC.TOGGLE's writes: `LATCH <- LATCH'`, `PREV <- btn` (R75). -/
def updateLatch (btn : Bool) (s : State) : State :=
  { s with latch := latchNext s.latch s.prev btn, prev := btn }

/-- `raise Fatal(E_WRITE)`: nothing is recorded but `ST` itself (R19, R121). -/
def raiseWriteFailure (s : State) : State := goto .fatal s

/-- Entry to the retry path on `E_MISMATCH`: nothing is saved, no mode changes (R122, R130). -/
def enterRetryPath (s : State) : State := goto .retrying s

/-- Leaving the exchange, with or without retries behind it: to `Idle`, nothing restored (R96, R131). -/
def leaveExchange (s : State) : State := goto .idle s

/-- A frame of free bytes (R25: unspecified after reset), log 5. -/
def freeFrame (n : Nat) : Frame :=
  ⟨Config.freeByte n, Config.freeByte (n + 1), Config.freeByte (n + 2), Config.freeByte (n + 3),
    Config.freeByte (n + 4), Config.freeByte (n + 5), Config.freeByte (n + 6), Config.freeByte (n + 7)⟩

/-- The reset input: every register of the block takes its value of R25, whatever the state was; `RXQ`, the streams and
the ports are not touched (R140). -/
def applyReset (s : State) : State :=
  { s with
    pkt := freeFrame s.freeCount
    rxbuf := freeFrame (s.freeCount + Config.frameLen)
    freeCount := s.freeCount + 2 * Config.frameLen
    st := .idle
    latch := false
    prev := false
    retry := 0
    rxcnt := 0 }

/-- The value a packing function returns to its caller, when it is invoked on its own (log 13). -/
def returnValue (r : FnResult) (s : State) : State := { s with ret := some r }

end Sys2Proof.Machine
end

