-- ==== Sys2Proof/Machine/Decoder.lean ====
section
/-! DEFINITION. The Reply Decoder (42_decoder.md). -/

namespace Sys2Proof.Machine

/-- DECODE, invoked on its own: total, no state written (R110, R111). -/
def execDecode (r : Frame) (s : State) : Host.Outcome State Fault Refusal :=
  .next (returnValue (.status (statusOf r)) s)

end Sys2Proof.Machine
end

