-- ==== Sys2Proof/Machine/Encoder.lean ====
section
/-! DEFINITION. The Command Encoder (40_encoder.md): the meaning of each packing function invoked on its own. None can
fail; only ENC.TOGGLE, alone or inside ENCODE, writes `LATCH` and `PREV` (R70). -/

namespace Sys2Proof.Machine

/-- ENCODE's value in a state (R79). -/
def encodeIn (sn : Snapshot) (s : State) : Command :=
  encodeCommand s.params sn (latchNext s.latch s.prev sn.toggleBtn)

/-- DRIVE (R71). -/
def execDrive (n : Axis) (s : State) : Host.Outcome State Fault Refusal :=
  .next (returnValue (.byte (driveByte s.params n)) s)

/-- ENC.LDRIVE (R72). -/
def execEncLdrive (sn : Snapshot) (s : State) : Host.Outcome State Fault Refusal :=
  .next (returnValue (.byte (driveByte s.params sn.axisL)) s)

/-- ENC.RDRIVE (R78). -/
def execEncRdrive (sn : Snapshot) (s : State) : Host.Outcome State Fault Refusal :=
  .next (returnValue (.byte (driveByte s.params sn.axisR)) s)

/-- PAIR (R73). -/
def execPair (m0 m1 : Bool) (s : State) : Host.Outcome State Fault Refusal :=
  .next (returnValue (.pair (pairOut m0 m1).1 (pairOut m0 m1).2) s)

/-- ENC.AUGER (R74). -/
def execEncAuger (sn : Snapshot) (s : State) : Host.Outcome State Fault Refusal :=
  .next (returnValue (.byte (augerByte sn)) s)

/-- ENC.TOGGLE (R75). -/
def execEncToggle (sn : Snapshot) (s : State) : Host.Outcome State Fault Refusal :=
  .next (returnValue (.latch (latchNext s.latch s.prev sn.toggleBtn)) (updateLatch sn.toggleBtn s))

/-- ENC.RAIL (R76). -/
def execEncRail (sn : Snapshot) (latch' : Bool) (s : State) : Host.Outcome State Fault Refusal :=
  .next (returnValue (.byte (railByte sn latch')) s)

/-- ENC.ZERO (R77). -/
def execEncZero (s : State) : Host.Outcome State Fault Refusal :=
  .next (returnValue (.zeros zeroByte zeroByte zeroByte) s)

/-- ENCODE (R79). -/
def execEncode (sn : Snapshot) (s : State) : Host.Outcome State Fault Refusal :=
  .next (returnValue (.command (encodeIn sn s)) (updateLatch sn.toggleBtn s))

end Sys2Proof.Machine
end

