-- ==== Sys2Proof/Machine/Exchange.lean ====
section
/-! DEFINITION. The Packet Exchange Engine (41_exchange.md): the meaning of each transition. Outside its enabling condition
a transition is no step of the block and faults (log 12). -/

namespace Sys2Proof.Machine

/-- CYCLE_START (R91): `PKT[0..6]` from ENCODE, which writes `LATCH` and `PREV`; `RETRY <- 0`; `ST <- Sending`. -/
def execCycleStart (sn : Snapshot) (s : State) : Host.Outcome State Fault Refusal :=
  if s.st = .idle then
    .next (goto .sending
      { updateLatch sn.toggleBtn (memWrite .pkt 0 (encodeIn sn s).toList s) with retry := 0 })
  else .fault .notEnabled

/-- SEND (R92): `PKT[7] <- v`, `RXCNT <- 0`, all of `PKT` to the transport; a failed write is fatal (R121). -/
def execSend (v : Draw) (o : WriteOutcome) (s : State) : Host.Outcome State Fault Refusal :=
  if s.st = .sending then
    let s1 := { memWrite .pkt 7 [drawByte v] s with rxcnt := 0 }
    let s2 := txWriteAll (memRead .pkt 0 Config.frameLen s1) o s1
    match o with
    | .ok => .next (goto .awaitingReply s2)
    | .fail _ => .next (raiseWriteFailure s2)
  else .fault .notEnabled

/-- RECV (R93): the bytes of `RxRead(8 - RXCNT)` to `RXBUF[RXCNT ..]`, `RXCNT` moved past them. -/
def execRecv (k : Nat) (s : State) : Host.Outcome State Fault Refusal :=
  if s.st = .awaitingReply ∧ s.rxcnt < Config.frameLen then
    let c := rxReadBytes (Config.frameLen - s.rxcnt) k s
    let s1 := memWrite .rxbuf s.rxcnt c (rxReadRest (Config.frameLen - s.rxcnt) k s)
    .next { s1 with rxcnt := s.rxcnt + c.length }
  else .fault .notEnabled

/-- VERIFY (R94). -/
def execVerify (s : State) : Host.Outcome State Fault Refusal :=
  if s.st = .awaitingReply ∧ full s then
    if replyMatches s then .next (goto .verified s) else .next (enterRetryPath s)
  else .fault .notEnabled

/-- RETRY (R95): increment, then classify. -/
def execRetry (s : State) : Host.Outcome State Fault Refusal :=
  if s.st = .retrying then
    .next (goto .sending (emit (.warn (severity (s.retry + 1))) { s with retry := s.retry + 1 }))
  else .fault .notEnabled

/-- DELIVER (R96): the decoded reply to the sink, back to `Idle`. -/
def execDeliver (s : State) : Host.Outcome State Fault Refusal :=
  if s.st = .verified then .next (leaveExchange (emit (.sink (statusOf s.rxbuf)) s))
  else .fault .notEnabled

end Sys2Proof.Machine
end

