-- ==== Sys2Proof/Machine/Dispatch.lean ====
section
/-! DEFINITION. The one dispatch over the operations. -/

namespace Sys2Proof.Machine

/-- The meaning of an operation. -/
def exec (i : Instr) (s : State) : Host.Outcome State Fault Refusal :=
  match i with
  | .cycleStart sn => Sys2Proof.Machine.execCycleStart sn s
  | .send v o => Sys2Proof.Machine.execSend v o s
  | .recv k => Sys2Proof.Machine.execRecv k s
  | .verify => Sys2Proof.Machine.execVerify s
  | .deliver => Sys2Proof.Machine.execDeliver s
  | .retry => Sys2Proof.Machine.execRetry s
  | .encode sn => Sys2Proof.Machine.execEncode sn s
  | .drive n => Sys2Proof.Machine.execDrive n s
  | .encLdrive sn => Sys2Proof.Machine.execEncLdrive sn s
  | .encRdrive sn => Sys2Proof.Machine.execEncRdrive sn s
  | .pair m0 m1 => Sys2Proof.Machine.execPair m0 m1 s
  | .encAuger sn => Sys2Proof.Machine.execEncAuger sn s
  | .encToggle sn => Sys2Proof.Machine.execEncToggle sn s
  | .encRail sn l => Sys2Proof.Machine.execEncRail sn l s
  | .encZero => Sys2Proof.Machine.execEncZero s
  | .decode r => Sys2Proof.Machine.execDecode r s

end Sys2Proof.Machine
end

