-- ==== Sys2Proof/Machine/Fetch.lean ====
section
/-! DEFINITION. What moves next: the environment's moves, the selection of the enabled operation by the dispatch word
(30_encoding.md R63) with the answers the environment gives it, and the placing of an operation so that it is selected. -/

namespace Sys2Proof.Machine

/-- The draw and the outcome of the next SEND, and the state with what they took from the script or from the free values
gone. A scripted draw without a scripted outcome means `WR ok` (R68), log 7 and 8. -/
def sendAnswer (s : State) : Draw × WriteOutcome × State :=
  match s.script with
  | .draw v :: .wr o :: rest => (v, o, { s with script := rest })
  | .draw v :: rest => (v, .ok, { s with script := rest })
  | .wr o :: rest => (Config.freeDraw s.freeCount, o, { s with script := rest, freeCount := s.freeCount + 1 })
  | _ =>
    (Config.freeDraw s.freeCount,
      match Config.freeWrite s.freeCount with
      | none => .ok
      | some j => .fail j,
      { s with freeCount := s.freeCount + 1 })

/-- How many bytes the next RECV would get, and the state with what that took gone (R37), log 9. -/
def readAnswer (s : State) : Nat × State :=
  match s.script with
  | .read k :: rest => (k, { s with script := rest })
  | _ => (Config.freeRead s.freeCount, { s with freeCount := s.freeCount + 1 })

/-- The script once the block has taken a turn that the environment waits for. -/
def afterTurn : List EnvInput → List EnvInput
  | .turn :: rest => rest
  | es => es

/-- The block takes its turn: an entry `turn` at the head of the script is consumed (log 6). -/
def takeTurn (s : State) : State := { s with script := afterTurn s.script }

/-- What the state machine does next. -/
inductive Fetched where
  /-- An operation is enabled; the state it runs in has lost the inputs it consumed. -/
  | run (i : Instr) (s : State)
  /-- `Idle` and no snapshot offered: no step (R97). -/
  | wait
  /-- No operation is enabled (R98). -/
  | halted
deriving DecidableEq, Repr

/-- The operation the dispatch word selects, with its operands (R63). -/
def fetch (s : State) : Fetched :=
  match decodeDispatch (dispatchWord s) with
  | .ok .cycleStart =>
    match s.offer with
    | some sn => .run (.cycleStart sn) { s with offer := none }
    | none => .wait
  | .ok .send => .run (.send (sendAnswer s).1 (sendAnswer s).2.1) (sendAnswer s).2.2
  | .ok .recv => .run (.recv (readAnswer s).1) (readAnswer s).2
  | .ok .verify => .run .verify s
  | .ok .deliver => .run .deliver s
  | .ok .retry => .run .retry s
  | .ok .encode | .ok .drive | .ok .encLdrive | .ok .encRdrive | .ok .pair | .ok .encAuger | .ok .encToggle
  | .ok .encRail | .ok .encZero | .ok .decode => .halted
  | .error _ => .halted

/-- The environment goes on after the last line of its script, if it does (R46, R99), log 25. -/
def moreLines (s : State) : Option State :=
  match s.ending with
  | .silent => none
  | .again es => some { s with script := es }
  | .free => some { s with script := Config.freeLines s.freeCount, freeCount := s.freeCount + 1 }

/-- An environment agent's move at the head of the script, and the state after it; `none` when it is the block's turn
(R9, R46, R97, R140). A script that is used up gets its next lines, in a step that changes nothing else (log 25). -/
def envMove (s : State) : Option State :=
  match s.script with
  | .offer o :: rest => some { s with script := rest, offer := o }
  | .arrive c :: rest => some { s with script := rest, rxq := s.rxq ++ c }
  | .reset :: rest => some (applyReset { s with script := rest })
  | [] => moreLines s
  | .draw _ :: _ | .wr _ :: _ | .read _ :: _ | .turn :: _ => none

/-- Whether a script entry is a move, which runs when it is at the head, and not an answer or a turn of the block. -/
def isMove : EnvInput → Bool
  | .offer _ | .arrive _ | .reset => true
  | .draw _ | .wr _ | .read _ | .turn => false

/-- The script with a turn of the block before anything the environment would do first. -/
def withTurn (s : State) : List EnvInput := if (envMove s).isNone then s.script else .turn :: s.script

/-- The state with an operation placed where the next step selects it (log 16): a transition by its state, its `FULL` and
its operands; a function at the invocation port. -/
def place (i : Instr) (s : State) : State :=
  let quiet := { s with invoke := none, script := withTurn s }
  match i with
  | .cycleStart sn => { quiet with st := .idle, offer := some sn }
  | .send v o => { s with invoke := none, st := .sending, script := .draw v :: .wr o :: s.script }
  | .recv k =>
    { s with
      invoke := none
      st := .awaitingReply
      rxcnt := if s.rxcnt < Config.frameLen then s.rxcnt else 0
      script := .read k :: s.script }
  | .verify => { quiet with st := .awaitingReply, rxcnt := Config.frameLen }
  | .deliver => { quiet with st := .verified }
  | .retry => { quiet with st := .retrying }
  | .encode _ | .drive _ | .encLdrive _ | .encRdrive _ | .pair _ _ | .encAuger _ | .encToggle _ | .encRail _ _
  | .encZero | .decode _ => { s with invoke := some i }

/-- A script line `SNAP s` of R68. -/
def lineSnap (sn : Snapshot) : List EnvInput := [.offer (some sn)]

/-- A script line `RX b b ...` of R68: the bytes arrive, and the next read returns that many. -/
def lineRx (c : List Byte) : List EnvInput := [.arrive c, .read c.length]

end Sys2Proof.Machine
end

