-- ==== Sys2Proof/Machine/Step.lean ====
section
/-! DEFINITION. One step: a function at the invocation port, else an environment move, else the block's operation. -/

namespace Sys2Proof.Machine

/-- The block's turn: the enabled operation, the wait of R97, or the stop of R98. -/
def blockStep (s : State) : Host.Outcome State Fault Refusal :=
  match fetch (takeTurn s) with
  | .run i s' => exec i s'
  | .wait => .next (takeTurn s)
  | .halted => .fault .eWrite

/-- One step. -/
def step (s : State) : Host.Outcome State Fault Refusal :=
  match s.invoke with
  | some i => exec i { s with invoke := none }
  | none =>
    match envMove s with
    | some s' => .next s'
    | none => blockStep s

/-- The state with the operation of a table word placed where the next step selects it (log 16). The dispatch words of
`Fatal`, which enable nothing, place that state. -/
def State.withFetchWord (s : State) (nbits w : Nat) : State :=
  match decodeTableWord nbits w with
  | some i => place i s
  | none =>
    if nbits = 8 ∧ (w = 0xA ∨ w = 0xB) then
      { s with invoke := none, script := withTurn s, st := .fatal }
    else s

end Sys2Proof.Machine
end

