-- ==== Sys2Proof/Safety.lean ====
section
/-! DEFINITION. The terms claims use: runs of operations, legal command frames, the machine's invariant, how a run ends. -/

namespace Sys2Proof.Machine

/-- Operations performed one after the other, stopping at the first fault or refusal. -/
def execAll : List Instr → State → Host.Outcome State Fault Refusal
  | [], s => .next s
  | i :: is, s =>
    match exec i s with
    | .next t => execAll is t
    | .fault f => .fault f
    | .refused r => .refused r

/-- Steps performed one after the other, stopping at the first fault or refusal. -/
def run : Nat → State → Host.Outcome State Fault Refusal
  | 0, s => .next s
  | n + 1, s =>
    match step s with
    | .next t => run n t
    | .fault f => .fault f
    | .refused r => .refused r

/-- Offsets 0 to 6 of a Command Packet as the block generates them: drive bytes at most 20, no bit set that has no field,
no two opposing bits of `AUGER_DRIVE` or of rail-up / rail-down, offsets 4 to 6 zero (R51 to R54, R58, R64). -/
def commandLegal (f : Frame) : Bool :=
  decide (f.b0.toNat ≤ 20) && decide (f.b1.toNat ≤ 20)
    && decide (f.b2.toNat < 16) && !(f.b2.getLsbD 0 && f.b2.getLsbD 1) && !(f.b2.getLsbD 2 && f.b2.getLsbD 3)
    && decide (f.b3.toNat < 32) && !(f.b3.getLsbD 2 && f.b3.getLsbD 3)
    && f.b4 == 0 && f.b5 == 0 && f.b6 == 0

/-- Whether a cycle is in progress or ended in `Fatal`: `PKT[0..6]` was written by a CYCLE_START since reset. -/
def inCycle (st : ExState) : Bool :=
  match st with
  | .idle => false
  | .sending | .awaitingReply | .verified | .retrying | .fatal => true

/-- Whether a SEND of this cycle has written `PKT[7]` for the attempt in progress. -/
def inAttempt (st : ExState) : Bool :=
  match st with
  | .idle | .sending => false
  | .awaitingReply | .verified | .retrying | .fatal => true

/-- The invariant of the block (R10 to R18, R45, R55, R64, R94): what every step keeps. -/
structure Inv (s : State) : Prop where
  /-- `RXCNT` is 0..8 (R14). -/
  rxcnt_le : s.rxcnt ≤ 8
  /-- `1 <= AXIS_ONE < 2^(AXIS_W-1)` (R6). -/
  params_wf : s.params.wellFormed = true
  /-- No function is presented on its own: inside the block functions are invoked by CYCLE_START and DELIVER (R63). -/
  no_invocation : s.invoke = none
  /-- `PKT[0..6]` is a legal command during a cycle (R64). -/
  command_legal : inCycle s.st = true → commandLegal s.pkt = true
  /-- `RAIL` bit 4 is the latch during a cycle (R45, R76). -/
  latch_bit : inCycle s.st = true → s.pkt.b3.getLsbD 4 = s.latch
  /-- The verification byte of an attempt is never 255 (R55). -/
  verification_ne : inAttempt s.st = true → s.pkt.b7 ≠ 255
  /-- In `Verified` a full reply is held and matches (R94). -/
  verified_match : s.st = .verified → s.rxcnt = 8 ∧ s.rxbuf.b7 = s.pkt.b7
  /-- In `Retrying` a full reply is held and differs (R94). -/
  retrying_mismatch : s.st = .retrying → s.rxcnt = 8 ∧ s.rxbuf.b7 ≠ s.pkt.b7

/-- A finite script's run is complete: every input consumed and `ST = Idle` (R102). -/
def runComplete (s : State) : Bool := s.script.isEmpty && s.ending == .silent && s.offer.isNone && s.st == .idle

/-- A run that stopped here has faulted (R98, R102). -/
def runFaulted (s : State) : Bool := s.st == .fatal

/-- It is the block's turn: nothing at the invocation port, no environment move at the head of the script. -/
def blockTurn (s : State) : Bool := s.invoke.isNone && (envMove s).isNone

/-- Whether the reset input is the environment's next move (R140). -/
def resetNext (s : State) : Bool := s.script.head? == some .reset

/-- Whether a script entry answers a request of the block (R68). -/
def isAnswer : EnvInput → Bool
  | .draw _ | .wr _ | .read _ => true
  | .offer _ | .arrive _ | .reset | .turn => false

/-- The bytes the next step appends to `RXQ` (R46). -/
def arriving (s : State) : List Byte :=
  match s.script with
  | .arrive c :: _ => c
  | _ => []

/-- The bytes that arrive in the first `n` steps of a run. -/
def arrivals (σ : Nat → State) (n : Nat) : List Byte := (List.range n).flatMap fun k => arriving (σ k)

/-- How many of the first `n` steps of a run are SENDs. -/
def sendCount (σ : Nat → State) (n : Nat) : Nat := (List.range n).countP fun k => blockTurn (σ k) && (σ k).st == .sending

/-- The state as a block whose retry counter saturates at `cap` would hold it (R15). -/
def saturate (cap : Nat) (s : State) : State := { s with retry := min s.retry cap }

/-- One attempt of a script: a draw, and one read of the whole reply (R68's `ATTEMPT`). -/
structure Attempt where
  draw : Draw
  reply : Frame
deriving DecidableEq, Repr

/-- Whether an attempt's reply carries the attempt's draw at offset 7 (R94). -/
def Attempt.accepted (a : Attempt) : Bool := a.reply.b7 == drawByte a.draw

/-- The answers a sequence of attempts takes from the script. -/
def attemptAnswers (as : List Attempt) : List EnvInput := as.flatMap fun a => [.draw a.draw, .read 8]

/-- The lines of an environment that answers a sequence of attempts as they come: the draw, the reply's arrival, one read. -/
def attemptLines (as : List Attempt) : List EnvInput :=
  as.flatMap fun a => [.draw a.draw, .arrive a.reply.toList, .read 8]

/-- The bytes a sequence of attempts takes from `RXQ`. -/
def attemptReplies (as : List Attempt) : List Byte := as.flatMap fun a => a.reply.toList

/-- The bytes a sequence of attempts with one command puts on the TX stream. -/
def attemptFrames (pkt : Frame) (as : List Attempt) : List Byte :=
  as.flatMap fun a => [pkt.b0, pkt.b1, pkt.b2, pkt.b3, pkt.b4, pkt.b5, pkt.b6, drawByte a.draw]

/-- The warnings of `n` mismatches in one cycle: `low` for the first, `high` for the others (R95, R100). -/
def retryWarnings : Nat → List Event
  | 0 => []
  | n + 1 => .warn .low :: List.replicate n (.warn .high)

end Sys2Proof.Machine
end

