-- ==== Sys2Proof/Certificates/Slice0/Obligations.lean ====
section
/-! DEFINITION. The statements for the provers, in the order of OBLIGATIONS.json. -/

open Sys2Proof Sys2Proof.Machine

/- Encoder -/

/-- R71: at every AXIS_W and AXIS_ONE, DRIVE returns the clamped, rounded drive value of every axis of AXIS_W bits, by the
pseudocode's formula and by its threshold law; `0` is neutral, `±AXIS_ONE` and everything beyond them are the ends. -/
def Obligations.DriveReturnsClampedRoundedValue : Prop :=
  ∀ (s : State) (n : Int), 1 ≤ s.params.axisOne → axisFits s.params.axisW n = true →
    ∃ d : Byte, exec (.drive n) s = .next { s with ret := some (.byte d) } ∧
      d.toNat ≤ 20 ∧
      (let one := s.params.axisOne
       (d.toNat : Int) = max 0 (min 20 (10 +
         (if 0 ≤ n then (((20 * n.natAbs + one) / (2 * one) : Nat) : Int)
          else -(((20 * n.natAbs + one) / (2 * one) : Nat) : Int)))) ∧
       (∀ k : Nat, 1 ≤ k → k ≤ 10 → (10 + k ≤ d.toNat ↔ (2 * k - 1 : Int) * one ≤ 20 * n)) ∧
       (∀ k : Nat, 1 ≤ k → k ≤ 10 → (d.toNat ≤ 10 - k ↔ 20 * n ≤ -((2 * k - 1 : Int) * one))) ∧
       (d.toNat = 10 ↔ -(one : Int) < 20 * n ∧ 20 * n < one) ∧
       ((one : Int) ≤ n → d.toNat = 20) ∧
       (n ≤ -(one : Int) → d.toNat = 0))

/-- R71's laws on the value itself, for an axis of any width: monotone, odd-symmetric about 10, ends at `±AXIS_ONE`. -/
def Obligations.DriveIsMonotoneAndOddSymmetric : Prop :=
  ∀ one : Nat, 1 ≤ one →
    (∀ a b : Int, a ≤ b → driveValue one a ≤ driveValue one b) ∧
    (∀ a : Int, driveValue one (-a) = 20 - driveValue one a) ∧
    driveValue one 0 = 10 ∧ driveValue one one = 20 ∧ driveValue one (-(one : Int)) = 0

/-- R72, R78: each drive field is DRIVE of its own axis, a byte `000DDDDD`, and the same in any two states with one AXIS_W
and AXIS_ONE: nothing else the state holds, no earlier value among it, has any influence. -/
def Obligations.DriveFieldsAreDriveOfTheirOwnAxis : Prop :=
  ∀ (s s' : State) (sn : Snapshot), s.params = s'.params → ∃ l r : Byte,
    exec (.encLdrive sn) s = .next { s with ret := some (.byte l) } ∧
    exec (.drive sn.axisL) s' = .next { s' with ret := some (.byte l) } ∧
    exec (.encRdrive sn) s = .next { s with ret := some (.byte r) } ∧
    exec (.drive sn.axisR) s' = .next { s' with ret := some (.byte r) } ∧
    l.toNat ≤ 20 ∧ r.toNat ≤ 20 ∧ l &&& 0xE0 = 0 ∧ r &&& 0xE0 = 0

/-- R73: PAIR's two outputs, never both 1, and the five groups with their designated bits: `AUG_R`, `AUG_L` in
`AUGER_DRIVE`; `DUMP_G` and `RAIL_H` (their outputs ORed) and `RAIL_V` in `RAIL`. -/
def Obligations.ControlGroupsObeyPairPolicy : Prop :=
  (∀ (m0 m1 : Bool) (s : State), ∃ o0 o1 : Bool,
    exec (.pair m0 m1) s = .next { s with ret := some (.pair o0 o1) } ∧
    (o0 = true ↔ m0 = true ∧ m1 = false) ∧ (o1 = true ↔ m1 = true ∧ m0 = false) ∧ ¬ (o0 = true ∧ o1 = true)) ∧
  (∀ (sn : Snapshot) (l : Bool) (s : State), ∃ a b : Byte,
    exec (.encAuger sn) s = .next { s with ret := some (.byte a) } ∧
    exec (.encRail sn l) s = .next { s with ret := some (.byte b) } ∧
    a.getLsbD 0 = (sn.augRFwd && !sn.augRRev) ∧ a.getLsbD 1 = (sn.augRRev && !sn.augRFwd) ∧
    a.getLsbD 2 = (sn.augLFwd && !sn.augLRev) ∧ a.getLsbD 3 = (sn.augLRev && !sn.augLFwd) ∧
    b.getLsbD 0 = ((sn.dumpLower && !sn.dumpTilt) || (sn.railRight && !sn.railLeft)) ∧
    b.getLsbD 1 = ((sn.dumpTilt && !sn.dumpLower) || (sn.railLeft && !sn.railRight)) ∧
    b.getLsbD 2 = (sn.railUp && !sn.railDown) ∧ b.getLsbD 3 = (sn.railDown && !sn.railUp))

/-- R74, R52: `AUGER_DRIVE = r0 + 2*r1 + 4*l0 + 8*l1`, one of nine values. -/
def Obligations.AugerByteIsWeightedPairs : Prop :=
  ∀ (s : State) (sn : Snapshot), ∃ b : Byte,
    exec (.encAuger sn) s = .next { s with ret := some (.byte b) } ∧
    b.toNat = (sn.augRFwd && !sn.augRRev).toNat + 2 * (sn.augRRev && !sn.augRFwd).toNat
      + 4 * (sn.augLFwd && !sn.augLRev).toNat + 8 * (sn.augLRev && !sn.augLFwd).toNat ∧
    b ∈ ([0x00, 0x01, 0x02, 0x04, 0x05, 0x06, 0x08, 0x09, 0x0A] : List Byte)

/-- R75: `LATCH' = LATCH ^ (btn & ~PREV)`, `PREV <- btn`, the new latch returned, nothing else changed. -/
def Obligations.ToggleFlipsOnRisingEdge : Prop :=
  ∀ (s : State) (sn : Snapshot), ∃ t : State,
    exec (.encToggle sn) s = .next t ∧
    t = { s with latch := t.latch, prev := sn.toggleBtn, ret := some (.latch t.latch) } ∧
    (t.latch = s.latch ↔ ¬ (sn.toggleBtn = true ∧ s.prev = false))

/-- R75, R82 (the source's P4): a press flips the latch once however long it is held, and a button held from before
never flips it. -/
def Obligations.HeldButtonFlipsLatchOnce : Prop :=
  ∀ (s : State) (sns : List Snapshot), sns ≠ [] → (∀ sn ∈ sns, sn.toggleBtn = true) →
    ∃ t, execAll (sns.map .encToggle) s = .next t ∧ t.prev = true ∧ (t.latch = s.latch ↔ s.prev = true)

/-- R76, R53: `RAIL = p + 2*q + 4*v0 + 8*v1 + 16*LATCH'`, at most 0x1B, bits 2 and 3 never both 1. -/
def Obligations.RailByteIsWeightedGroupsAndLatch : Prop :=
  ∀ (s : State) (sn : Snapshot) (l : Bool), ∃ b : Byte,
    exec (.encRail sn l) s = .next { s with ret := some (.byte b) } ∧
    b.toNat = ((sn.dumpLower && !sn.dumpTilt) || (sn.railRight && !sn.railLeft)).toNat
      + 2 * ((sn.dumpTilt && !sn.dumpLower) || (sn.railLeft && !sn.railRight)).toNat
      + 4 * (sn.railUp && !sn.railDown).toNat + 8 * (sn.railDown && !sn.railUp).toNat + 16 * l.toNat ∧
    b.toNat ≤ 0x1B ∧ ¬ (b.getLsbD 2 = true ∧ b.getLsbD 3 = true)

/-- R77: ENC.ZERO returns three zero bytes and writes nothing. -/
def Obligations.ZeroFieldsAreZero : Prop :=
  ∀ s : State, exec .encZero s = .next { s with ret := some (.zeros 0 0 0) }

/-- R79: ENCODE returns exactly what its parts return, ENC.RAIL with the latch ENC.TOGGLE returns, and writes what
ENC.TOGGLE writes. -/
def Obligations.EncodeComposesItsParts : Prop :=
  ∀ (s : State) (sn : Snapshot), ∃ (c : Command) (l : Bool),
    exec (.encode sn) s = .next { s with latch := l, prev := sn.toggleBtn, ret := some (.command c) } ∧
    exec (.encToggle sn) s = .next { s with latch := l, prev := sn.toggleBtn, ret := some (.latch l) } ∧
    exec (.encLdrive sn) s = .next { s with ret := some (.byte c.leftDrive) } ∧
    exec (.encRdrive sn) s = .next { s with ret := some (.byte c.rightDrive) } ∧
    exec (.encAuger sn) s = .next { s with ret := some (.byte c.augerDrive) } ∧
    exec (.encRail sn l) s = .next { s with ret := some (.byte c.rail) } ∧
    exec .encZero s = .next { s with ret := some (.zeros c.dump c.reserved1 c.reserved2) }

/-- R70, R81 (the source's P1): ENCODE's bytes and the new latch depend on the snapshot and the latch state only, whatever
else the two states hold. -/
def Obligations.EncodeDependsOnSnapshotAndLatchOnly : Prop :=
  ∀ (s s' : State) (sn : Snapshot), s.latch = s'.latch → s.prev = s'.prev → s.params = s'.params →
    ∃ t t', exec (.encode sn) s = .next t ∧ exec (.encode sn) s' = .next t' ∧
      t.ret = t'.ret ∧ t.latch = t'.latch ∧ t.prev = t'.prev

/-- R75, R79 (log 20): with the button pressed, the first of two encodings of one snapshot flips the latch exactly when the
button was not held before, and the second flips nothing and returns the same seven bytes. -/
def Obligations.SecondEncodingRepeatsTheCommand : Prop :=
  ∀ (s : State) (sn : Snapshot), sn.toggleBtn = true →
    ∃ (t u : State) (c : Command), exec (.encode sn) s = .next t ∧ exec (.encode sn) t = .next u ∧
      t.ret = some (.command c) ∧ u = t ∧ (t.latch = s.latch ↔ s.prev = true)

/-- R64: what CYCLE_START and SEND never put in PKT; `RAIL` bits 0 and 1 are both set only by two groups at once. -/
def Obligations.IllegalCommandsAreNeverGenerated : Prop :=
  (∀ (s t : State) (sn : Snapshot), exec (.cycleStart sn) s = .next t →
    t.pkt.b0.toNat ≤ 20 ∧ t.pkt.b1.toNat ≤ 20 ∧
    ¬ (t.pkt.b2.getLsbD 0 = true ∧ t.pkt.b2.getLsbD 1 = true) ∧
    ¬ (t.pkt.b2.getLsbD 2 = true ∧ t.pkt.b2.getLsbD 3 = true) ∧ t.pkt.b2 &&& 0xF0 = 0 ∧
    ¬ (t.pkt.b3.getLsbD 2 = true ∧ t.pkt.b3.getLsbD 3 = true) ∧ t.pkt.b3 &&& 0xE0 = 0 ∧
    t.pkt.b4 = 0 ∧ t.pkt.b5 = 0 ∧ t.pkt.b6 = 0 ∧
    (t.pkt.b3.getLsbD 0 = true ∧ t.pkt.b3.getLsbD 1 = true →
      (sn.dumpLower = true ∧ sn.dumpTilt = false ∧ sn.railLeft = true ∧ sn.railRight = false) ∨
      (sn.dumpTilt = true ∧ sn.dumpLower = false ∧ sn.railRight = true ∧ sn.railLeft = false))) ∧
  (∀ (s t : State) (v : Draw) (o : WriteOutcome), exec (.send v o) s = .next t → t.pkt.b7 ≠ 255)

/-- R143: encoded against `LATCH = 0` and `PREV = 0`, a packet carries `RAIL` bit 4 exactly when the button is held; nothing
is transmitted before the first snapshot. -/
def Obligations.FirstPacketCarriesHeldButton : Prop :=
  ∀ (s : State) (sn : Snapshot), s.st = .idle → s.latch = false → s.prev = false →
    (∃ t, exec (.cycleStart sn) s = .next t ∧ t.pkt.b3.getLsbD 4 = sn.toggleBtn ∧ t.tx = s.tx) ∧
    (∀ t, s.invoke = none → step s = .next t → t.tx = s.tx)

/- Exchange -/

/-- R91: in `Idle`, CYCLE_START stores the seven bytes ENCODE returns for this snapshot, clears RETRY, takes ENCODE's latch
writes, goes to `Sending`, and touches nothing else (`PKT[7]`, RXCNT and RXBUF among it). -/
def Obligations.CycleStartStoresEncodedCommand : Prop :=
  ∀ (s : State) (sn : Snapshot), s.st = .idle →
    ∃ (c : Command) (l : Bool),
      exec (.encode sn) s = .next { s with latch := l, prev := sn.toggleBtn, ret := some (.command c) } ∧
      exec (.cycleStart sn) s = .next { s with
        pkt := ⟨c.leftDrive, c.rightDrive, c.augerDrive, c.rail, c.dump, c.reserved1, c.reserved2, s.pkt.b7⟩
        retry := 0, st := .sending, latch := l, prev := sn.toggleBtn } ∧
      c.dump = 0 ∧ c.reserved1 = 0 ∧ c.reserved2 = 0

/-- R92, R121, R36: in `Sending`, SEND writes the draw to `PKT[7]` and 0 to RXCNT and hands the eight bytes over in offset
order; a completed write appends all of them and leads to `AwaitingReply`, a failed one appends its first `j` and leads to
`Fatal`; nothing else changes. -/
def Obligations.SendTransmitsOrIsFatal : Prop :=
  ∀ (s : State) (v : Draw), s.st = .sending →
    exec (.send v .ok) s = .next { s with
      pkt := { s.pkt with b7 := BitVec.ofNat 8 v.val }, rxcnt := 0, st := .awaitingReply,
      tx := s.tx ++ [s.pkt.b0, s.pkt.b1, s.pkt.b2, s.pkt.b3, s.pkt.b4, s.pkt.b5, s.pkt.b6, BitVec.ofNat 8 v.val] } ∧
    ∀ j : Fin 8, exec (.send v (.fail j)) s = .next { s with
      pkt := { s.pkt with b7 := BitVec.ofNat 8 v.val }, rxcnt := 0, st := .fatal,
      tx := s.tx ++ [s.pkt.b0, s.pkt.b1, s.pkt.b2, s.pkt.b3, s.pkt.b4, s.pkt.b5, s.pkt.b6].take j.val }

/-- R93, R37 (log 9): in `AwaitingReply` with RXCNT below 8, RECV takes `min(k, 8 - RXCNT, |RXQ|)` bytes from the head of RXQ,
stores them in order from `RXBUF[RXCNT]` up, adds their number to RXCNT, and changes nothing else. R37 has no `k` above that
bound; the cut of such a `k` to it is the model's, log 9. -/
def Obligations.RecvStoresReturnedBytes : Prop :=
  ∀ (s : State) (k : Nat), s.st = .awaitingReply → s.rxcnt < 8 →
    ∃ t, exec (.recv k) s = .next t ∧
      (let m := min k (min (8 - s.rxcnt) s.rxq.length)
       t = { s with rxbuf := t.rxbuf, rxcnt := s.rxcnt + m, rxq := s.rxq.drop m } ∧
       t.rxcnt ≤ 8 ∧
       ∀ a, a < 8 → readByte .rxbuf a t =
         if s.rxcnt ≤ a ∧ a < s.rxcnt + m then s.rxq[a - s.rxcnt]? else readByte .rxbuf a s)

/-- R124, R38: a read that returns no byte, by choice or because RXQ is empty, changes nothing. -/
def Obligations.EmptyReadIsStutter : Prop :=
  ∀ (s : State) (k : Nat), s.st = .awaitingReply → s.rxcnt < 8 → (k = 0 ∨ s.rxq = []) →
    exec (.recv k) s = .next s

/-- R94: with a full reply held, VERIFY compares offset 7 with the byte just sent and writes ST only. -/
def Obligations.VerifyComparesVerificationBytes : Prop :=
  ∀ s : State, s.st = .awaitingReply → s.rxcnt = 8 →
    (s.rxbuf.b7 = s.pkt.b7 → exec .verify s = .next { s with st := .verified }) ∧
    (s.rxbuf.b7 ≠ s.pkt.b7 → exec .verify s = .next { s with st := .retrying })

/-- R95, R61: RETRY increments, then warns `low` for the first mismatch of the cycle and `high` for every later one, and
returns to `Sending`; nothing else changes. -/
def Obligations.RetryIncrementsThenClassifies : Prop :=
  ∀ s : State, s.st = .retrying →
    exec .retry s = .next { s with
      retry := s.retry + 1, st := .sending,
      events := s.events ++ [.warn (if s.retry = 0 then .low else .high)] }

/-- R96, R112: DELIVER emits one `Sink` record, the reply's bytes by offset, and returns to `Idle`; nothing else changes. -/
def Obligations.DeliverForwardsDecodedReply : Prop :=
  ∀ s : State, s.st = .verified →
    exec .deliver s = .next { s with
      st := .idle
      events := s.events ++ [.sink
        { leftVel := s.rxbuf.b0, rightVel := s.rxbuf.b1, rail := s.rxbuf.b3, auger := s.rxbuf.b2, dump := s.rxbuf.b4,
          reserved1 := s.rxbuf.b5, reserved2 := s.rxbuf.b6, verification := s.rxbuf.b7 }] }

/-- R65, R125: whatever offsets 0 to 6 hold, a reply whose offset 7 matches is verified and delivered unchanged. -/
def Obligations.MatchingReplyIsDeliveredAsIs : Prop :=
  ∀ (s : State) (r : Frame), s.st = .awaitingReply → s.rxcnt = 8 → s.rxbuf = r → r.b7 = s.pkt.b7 →
    execAll [.verify, .deliver] s = .next { s with
      st := .idle, events := s.events ++ [.sink ⟨r.b0, r.b1, r.b3, r.b2, r.b4, r.b5, r.b6, r.b7⟩] }

/-- R65, R94: in a state the block can reach, a full reply with 255 at offset 7 is a mismatch. -/
def Obligations.ReplyOf255NeverMatches : Prop :=
  ∀ s : State, Inv s → s.st = .awaitingReply → s.rxcnt = 8 → s.rxbuf.b7 = 255 →
    exec .verify s = .next { s with st := .retrying }

/-- R147: with `j` stray bytes ahead of an 8-byte reply, the frame is the stray bytes and the head of the reply, and the
reply's tail is left as the next attempt's stray bytes. -/
def Obligations.StrayBytesShiftTheFrame : Prop :=
  ∀ (s : State) (stray reply later : List Byte), s.st = .awaitingReply → s.rxcnt = 0 →
    0 < stray.length → stray.length < 8 → reply.length = 8 → s.rxq = stray ++ reply ++ later →
    ∃ t, exec (.recv 8) s = .next t ∧ t.rxcnt = 8 ∧
      t.rxbuf.toList = stray ++ reply.take (8 - stray.length) ∧
      t.rxq = reply.drop (8 - stray.length) ++ later ∧ (reply.drop (8 - stray.length)).length = stray.length

/-- R63, log 12: a transition outside its enabling condition is no step of the block (the fault is the model's choice). -/
def Obligations.TransitionsFaultWhenNotEnabled : Prop :=
  ∀ s : State,
    (s.st ≠ .idle → ∀ sn, exec (.cycleStart sn) s = .fault .notEnabled) ∧
    (s.st ≠ .sending → ∀ v o, exec (.send v o) s = .fault .notEnabled) ∧
    (¬ (s.st = .awaitingReply ∧ s.rxcnt < 8) → ∀ k, exec (.recv k) s = .fault .notEnabled) ∧
    (¬ (s.st = .awaitingReply ∧ s.rxcnt = 8) → exec .verify s = .fault .notEnabled) ∧
    (s.st ≠ .retrying → exec .retry s = .fault .notEnabled) ∧
    (s.st ≠ .verified → exec .deliver s = .fault .notEnabled)

/-- R120 to R122: a condition is newly recorded only by a SEND whose write fails (`E_WRITE`) and by a VERIFY of a reply that
differs (`E_MISMATCH`). -/
def Obligations.ConditionsArePreciselyRaised : Prop :=
  ∀ (i : Instr) (s t : State), exec i s = .next t → condition s = none →
    (condition t = some .eWrite ↔ ∃ v j, i = .send v (.fail j)) ∧
    (condition t = some .eMismatch ↔ i = .verify ∧ s.rxbuf.b7 ≠ s.pkt.b7)

/- Decoder -/

/-- R110: DECODE copies each byte of the reply to the field of its offset and writes no state. -/
def Obligations.DecodeMapsOffsetsToFields : Prop :=
  ∀ (s : State) (r : Frame), ∃ rec : StatusRecord,
    exec (.decode r) s = .next { s with ret := some (.status rec) } ∧
    rec.leftVel = r.b0 ∧ rec.rightVel = r.b1 ∧ rec.auger = r.b2 ∧ rec.rail = r.b3 ∧ rec.dump = r.b4 ∧
    rec.reserved1 = r.b5 ∧ rec.reserved2 = r.b6 ∧ rec.verification = r.b7

/-- R111: every status record is the decoding of exactly one reply. -/
def Obligations.DecodeIsBijective : Prop :=
  ∀ (s : State) (rec : StatusRecord),
    ∃! r : Frame, exec (.decode r) s = .next { s with ret := some (.status rec) }

/- Frames over all operations -/

/-- R11, R12, R30: an operation leaves every byte of both buffers as it was, but CYCLE_START offsets 0 to 6 of PKT, SEND
offset 7 of PKT, and RECV the offsets of RXBUF from the old RXCNT up to the new one. -/
def Obligations.OnlyNamedOperationsWriteBuffers : Prop :=
  ∀ (i : Instr) (s t : State), exec i s = .next t → ∀ a : Nat,
    (¬ (i.row = .cycleStart ∧ a < 7) → ¬ (i.row = .send ∧ a = 7) → readByte .pkt a t = readByte .pkt a s) ∧
    (¬ (i.row = .recv ∧ s.rxcnt ≤ a ∧ a < t.rxcnt) → readByte .rxbuf a t = readByte .rxbuf a s)

/-- R13 to R17, R23: which operations may change each register, stream and port; the script, the port, the parameters and
the counter of free values are changed by none. -/
def Obligations.OnlyNamedOperationsWriteRegisters : Prop :=
  ∀ (i : Instr) (s t : State), exec i s = .next t →
    (i.row ∉ [Row.cycleStart, .send, .verify, .deliver, .retry] → t.st = s.st) ∧
    (i.row ∉ [Row.send, .recv] → t.rxcnt = s.rxcnt) ∧
    (i.row ∉ [Row.cycleStart, .retry] → t.retry = s.retry) ∧
    (i.row ∉ [Row.cycleStart, .encode, .encToggle] → t.latch = s.latch ∧ t.prev = s.prev) ∧
    (i.row ≠ .recv → t.rxq = s.rxq) ∧
    (i.row ≠ .send → t.tx = s.tx) ∧
    (i.row ∉ [Row.deliver, .retry] → t.events = s.events) ∧
    (i.row.isTransition = true → t.ret = s.ret) ∧
    t.offer = s.offer ∧ t.script = s.script ∧ t.ending = s.ending ∧ t.freeCount = s.freeCount ∧ t.invoke = s.invoke ∧
    t.params = s.params

/- Dispatch, step, environment -/

/-- R63: the dispatch word selects the operation of the table for every state and `FULL`; codes 6 and 7 stand for nothing; a
packing function is never dispatched. -/
def Obligations.DispatchWordSelectsOperation : Prop :=
  (∀ s : State, decodeDispatch (dispatchWord s) =
    match s.st with
    | .idle => .ok .cycleStart
    | .sending => .ok .send
    | .awaitingReply => if s.rxcnt = 8 then .ok .verify else .ok .recv
    | .verified => .ok .deliver
    | .retrying => .ok .retry
    | .fatal => .error .fatalState) ∧
  (∀ w : BitVec 4, 12 ≤ w.toNat → decodeDispatch w = .error .unreachableState) ∧
  (∀ (w : BitVec 4) (r : Row), decodeDispatch w = .ok r → r.isTransition = true)

/-- R63, R68: when it is the block's turn, a step is the operation the dispatch word selects, with the operands the snapshot
port and the script give; a scripted draw without an outcome means `WR ok`; an answer the script does not give is a free
value (log 7 to 9). `u` is the state with an entry `turn` at the head of the script consumed (log 6). A function at the
invocation port runs instead (log 13). -/
def Obligations.StepRunsSelectedOperation : Prop :=
  (∀ (s : State) (i : Instr), s.invoke = some i → step s = exec i { s with invoke := none }) ∧
  ∀ (s u : State) (es : List EnvInput), blockTurn s = true →
    (s.script = .turn :: es ∨ (s.script = es ∧ es.head? ≠ some .turn)) → u = { s with script := es } →
    (decodeDispatch (dispatchWord s) = .ok .cycleStart → ∀ sn, s.offer = some sn →
      step s = exec (.cycleStart sn) { u with offer := none }) ∧
    (decodeDispatch (dispatchWord s) = .ok .send →
      (∀ v o rest, es = .draw v :: .wr o :: rest → step s = exec (.send v o) { u with script := rest }) ∧
      (∀ v rest, es = .draw v :: rest → (∀ o, rest.head? ≠ some (.wr o)) →
        step s = exec (.send v .ok) { u with script := rest }) ∧
      (∀ o rest, es = .wr o :: rest →
        ∃ v, step s = exec (.send v o) { u with script := rest, freeCount := s.freeCount + 1 }) ∧
      ((∀ v, es.head? ≠ some (.draw v)) → (∀ o, es.head? ≠ some (.wr o)) →
        ∃ v o, step s = exec (.send v o) { u with freeCount := s.freeCount + 1 })) ∧
    (decodeDispatch (dispatchWord s) = .ok .recv →
      (∀ k rest, es = .read k :: rest → step s = exec (.recv k) { u with script := rest }) ∧
      ((∀ k, es.head? ≠ some (.read k)) →
        ∃ k, step s = exec (.recv k) { u with freeCount := s.freeCount + 1 })) ∧
    (decodeDispatch (dispatchWord s) = .ok .verify → step s = exec .verify u) ∧
    (decodeDispatch (dispatchWord s) = .ok .deliver → step s = exec .deliver u) ∧
    (decodeDispatch (dispatchWord s) = .ok .retry → step s = exec .retry u)

/-- R46, R97: the environment's moves touch the receive queue's tail and the snapshot port only, in every state of the
block; one that goes on for ever takes its next lines in a step that touches neither (log 25). -/
def Obligations.EnvironmentMovesTouchOnlyTheirPorts : Prop :=
  ∀ (s : State) (rest : List EnvInput), s.invoke = none →
    (∀ c, s.script = .arrive c :: rest → step s = .next { s with script := rest, rxq := s.rxq ++ c }) ∧
    (∀ o, s.script = .offer o :: rest → step s = .next { s with script := rest, offer := o }) ∧
    (s.script = [] →
      (∀ es, s.ending = .again es → step s = .next { s with script := es }) ∧
      (s.ending = .free → ∃ es, step s = .next { s with script := es, freeCount := s.freeCount + 1 }))

/-- R140: the reset input gives the registers their values of R25 from every state, touches neither RXQ nor an output, and
the first operation after it can only be CYCLE_START. -/
def Obligations.ResetInputRestoresRegisters : Prop :=
  ∀ (s : State) (rest : List EnvInput), s.invoke = none → s.script = .reset :: rest →
    ∃ t, step s = .next t ∧
      t.st = .idle ∧ t.latch = false ∧ t.prev = false ∧ t.retry = 0 ∧ t.rxcnt = 0 ∧
      t.rxq = s.rxq ∧ t.tx = s.tx ∧ t.events = s.events ∧ t.offer = s.offer ∧ t.script = rest ∧ t.params = s.params ∧
      decodeDispatch (dispatchWord t) = .ok .cycleStart

/-- R25: the values after reset, and reset as the only exit from `Fatal`. -/
def Obligations.ResetValuesAndOnlyExitFromFatal : Prop :=
  (State.reset.st = .idle ∧ State.reset.latch = false ∧ State.reset.prev = false ∧ State.reset.retry = 0 ∧
    State.reset.rxcnt = 0) ∧
  (∀ s t : State, s.invoke = none → s.st = .fatal → step s = .next t → t.st ≠ .fatal →
    resetNext s = true ∧ t.st = .idle ∧ t.latch = false ∧ t.prev = false ∧ t.retry = 0 ∧ t.rxcnt = 0)

/-- R98, R19: in `Fatal` the block's turn is a fault, and whatever the environment does short of a reset changes no register
and no output. -/
def Obligations.FatalIsAbsorbing : Prop :=
  ∀ s : State, s.invoke = none → s.st = .fatal →
    (blockTurn s = true → step s = .fault .eWrite) ∧
    (∀ t, step s = .next t → resetNext s = false →
      t = { s with script := t.script, freeCount := t.freeCount, offer := t.offer, rxq := t.rxq })

/-- R97, R128, R45: in `Idle` without a snapshot a step (log 10) changes nothing but the script; in a cycle no step but a
reset accepts a snapshot, changes `PKT[0..6]`, LATCH or PREV. -/
def Obligations.SnapshotsAreAcceptedInIdleOnly : Prop :=
  (∀ s : State, blockTurn s = true → s.st = .idle → s.offer = none → step s = .next (takeTurn s)) ∧
  (∀ s t : State, s.invoke = none → s.st ≠ .idle → resetNext s = false → step s = .next t →
    (∀ a, a < 7 → readByte .pkt a t = readByte .pkt a s) ∧ t.latch = s.latch ∧ t.prev = s.prev ∧
    (t.offer = s.offer ∨ ∃ o, s.script.head? = some (.offer o) ∧ t.offer = o))

/-- R90, R13: a step on the block's turn is a transition of the state graph, on the condition the graph gives it. The wait in
`Idle` without a snapshot, as a step that changes nothing but the script, is log 10's. -/
def Obligations.StepFollowsTheStateGraph : Prop :=
  ∀ s t : State, blockTurn s = true → step s = .next t →
    (s.st = .idle ∧ s.offer = none ∧ t = takeTurn s) ∨
    (s.st = .idle ∧ s.offer ≠ none ∧ t.st = .sending ∧ t.offer = none) ∨
    (s.st = .sending ∧ t.st = .awaitingReply ∧ t.tx.length = s.tx.length + 8) ∨
    (s.st = .sending ∧ t.st = .fatal ∧ t.tx.length < s.tx.length + 8) ∨
    (s.st = .awaitingReply ∧ s.rxcnt < 8 ∧ t.st = .awaitingReply) ∨
    (s.st = .awaitingReply ∧ s.rxcnt = 8 ∧ s.rxbuf.b7 = s.pkt.b7 ∧ t.st = .verified) ∨
    (s.st = .awaitingReply ∧ s.rxcnt = 8 ∧ s.rxbuf.b7 ≠ s.pkt.b7 ∧ t.st = .retrying) ∨
    (s.st = .verified ∧ t.st = .idle) ∨
    (s.st = .retrying ∧ t.st = .sending)

/-- R39: nothing but a read in `AwaitingReply` takes a byte from RXQ, not even reset: a step that is no turn of the block
leaves RXQ or appends what arrives; on the block's turn nothing is appended, RXQ is untouched outside `AwaitingReply`, and in
it the bytes taken are from the head and as many as RXCNT grows by. -/
def Obligations.OnlyReadsTakeFromTheReceiveQueue : Prop :=
  ∀ s t : State, s.invoke = none → step s = .next t →
    (blockTurn s = false → t.rxq = s.rxq ++ arriving s) ∧
    (blockTurn s = true → s.st ≠ .awaitingReply → t.rxq = s.rxq) ∧
    (blockTurn s = true → s.st = .awaitingReply →
      s.rxcnt ≤ t.rxcnt ∧ t.rxcnt ≤ 8 ∧ t.rxq = s.rxq.drop (t.rxcnt - s.rxcnt))

/-- R36, R42, R32: a step never takes back a transmitted byte; outside SEND it transmits nothing; a SEND transmits a prefix
of PKT in offset order, all of it exactly when it leads to `AwaitingReply`. -/
def Obligations.TransmitStreamGrowsByFramePrefixes : Prop :=
  ∀ s t : State, s.invoke = none → step s = .next t →
    ∃ n, n ≤ 8 ∧ t.tx = s.tx ++ t.pkt.toList.take n ∧
      (s.st ≠ .sending ∨ blockTurn s = false → n = 0) ∧
      (s.st = .sending → blockTurn s = true → (n = 8 ↔ t.st = .awaitingReply))

/-- R127, R99, R145: with a reply incomplete and no byte ever arriving, the block stays in `AwaitingReply` for ever: after
any number of steps, with any reads asked for, over and over or not, no register and no output has changed. -/
def Obligations.SilentLinkHangs : Prop :=
  ∀ (s : State) (es : List EnvInput) (n : Nat), s.invoke = none → (s.ending = .silent ∨ s.ending = .again es) →
    (∀ e ∈ s.script ++ es, e = .turn ∨ ∃ k, e = .read k) → s.st = .awaitingReply → s.rxcnt < 8 → s.rxq = [] →
    ∃ t, run n s = .next t ∧ t = { s with freeCount := t.freeCount, script := t.script }

/-- R99, R127: no step but a reset leaves `AwaitingReply` before eight bytes are held. -/
def Obligations.AwaitingReplyIsLeftOnlyWithFullReply : Prop :=
  ∀ s t : State, s.invoke = none → s.st = .awaitingReply → s.rxcnt < 8 → resetNext s = false → step s = .next t →
    t.st = .awaitingReply ∧ t.tx = s.tx ∧ t.events = s.events ∧ s.rxcnt ≤ t.rxcnt ∧ t.rxcnt ≤ 8

/- Invariant -/

/-- The reset state meets the invariant (its PKT, RXBUF and parameters are the model's choice: log 1, 2, 3). -/
def Obligations.ResetEstablishesInvariant : Prop := Inv State.reset

/-- Every step keeps the invariant: RXCNT in range, PKT a legal command during a cycle with `RAIL` bit 4 the latch, no 255
as verification byte, `Verified` and `Retrying` only with a full reply that matches or differs. -/
def Obligations.StepKeepsInvariant : Prop :=
  ∀ s t : State, Inv s → step s = .next t → Inv t

/- Laws of the loop -/

/-- R101: whatever the sizes of the reads and however many are empty, RXBUF holds the bytes of RXQ in order, and `FULL` is
reached exactly when eight have come. Each script line is an arrival followed by a read of as many bytes (log 6). -/
def Obligations.FragmentsAssembleOneFrame : Prop :=
  ∀ (s : State) (cs : List (List Byte)) (rest : List EnvInput),
    s.invoke = none → s.st = .awaitingReply → s.rxcnt = 0 →
    s.script = cs.flatMap lineRx ++ rest → cs.dropLast.flatten.length < 8 → cs.flatten.length ≤ 8 →
    ∃ t, run (2 * cs.length) s = .next t ∧
      t.st = .awaitingReply ∧ t.script = rest ∧ t.rxcnt = cs.flatten.length ∧
      (full t = true ↔ cs.flatten.length = 8) ∧
      t.rxbuf.toList.take t.rxcnt = (s.rxq ++ cs.flatten).take t.rxcnt ∧
      t.rxq = (s.rxq ++ cs.flatten).drop t.rxcnt ∧ t.pkt = s.pkt ∧ t.tx = s.tx ∧ t.events = s.events

/-- R100, that such a cycle runs to its end: in a cycle whose draws the script gives, whose writes complete, whose replies are
all queued before it, each read whole by one read of 8, and in which the environment makes no move, `N` attempts with a reply
that differs and then one with a reply that matches are exactly `N` retries: `N + 1` frames with the fields of CYCLE_START
transmitted, `8 * (N + 1)` bytes consumed, `N` warnings (`low`, then `high`), then one record, the last reply's; RETRY = N,
ST = Idle. Replies in fragments, empty reads, bytes that arrive during the cycle and free draws are
CompletedCycleObeysRetryCountLaw's. -/
def Obligations.RetryCountLaw : Prop :=
  ∀ (s u : State) (sn : Snapshot) (failed : List Attempt) (last : Attempt) (rest : List EnvInput) (later : List Byte),
    s.invoke = none → s.st = .idle → s.offer = some sn → exec (.cycleStart sn) s = .next u →
    (∀ a ∈ failed, a.accepted = false) → last.accepted = true →
    s.script = attemptAnswers (failed ++ [last]) ++ rest → (∀ e, rest.head? = some e → isAnswer e = true) →
    (rest = [] → s.ending = .silent) →
    s.rxq = attemptReplies (failed ++ [last]) ++ later →
    ∃ t, run (1 + 4 * (failed.length + 1)) s = .next t ∧
      t.st = .idle ∧ t.retry = failed.length ∧ t.script = rest ∧ t.rxq = later ∧ t.offer = none ∧
      t.tx = s.tx ++ attemptFrames u.pkt (failed ++ [last]) ∧
      t.events = s.events ++ retryWarnings failed.length ++ [.sink (statusOf last.reply)] ∧
      t.latch = u.latch ∧ t.prev = u.prev

/-- R15: a block whose retry counter saturates at any cap of at least 2 is indistinguishable from the unbounded one: it makes
the same steps, with the same outputs, registers and stops, RETRY apart. -/
def Obligations.SaturatingRetryIsIndistinguishable : Prop :=
  ∀ (cap : Nat) (s u : State), 2 ≤ cap → saturate cap s = saturate cap u →
    (∀ t, step s = .next t → ∃ t', step u = .next t' ∧ saturate cap t' = saturate cap t ∧
      t'.events = t.events ∧ t'.tx = t.tx) ∧
    (∀ f, step s = .fault f → step u = .fault f)

/- Codes -/

/-- A few codes written out from R63's table and from the operand layouts (the functions' codes are the model's own,
log 14). -/
def Obligations.KnownCodesDecode : Prop :=
  decodeDispatch 0b0000#4 = .ok .cycleStart ∧ decodeDispatch 0b0010#4 = .ok .send ∧
  decodeDispatch 0b0100#4 = .ok .recv ∧ decodeDispatch 0b0101#4 = .ok .verify ∧
  decodeDispatch 0b0110#4 = .ok .deliver ∧ decodeDispatch 0b1000#4 = .ok .retry ∧
  decodeDispatch 0b1010#4 = .error .fatalState ∧ decodeDispatch 0b1100#4 = .error .unreachableState ∧
  decodeInstr 16 [0x02, 0x5A, 0x00] = .ok (.send 0x5A .ok, []) ∧
  decodeInstr 16 [0x02, 0x7F, 0x04] = .ok (.send 0x7F (.fail 3), []) ∧
  decodeInstr 16 [0x02, 0xFF, 0x00] = .error .drawOutOfRange

/-- Decoding the code of a well-formed operation gives that operation back, with every operand at every value and
every AXIS_W, whatever bytes follow. -/
def Obligations.DecodeInvertsEncode : Prop :=
  ∀ (w : Nat) (i : Instr) (rest : List Byte), i.wellFormed w = true →
    decodeInstr w (encodeInstr w i ++ rest) = .ok (i, rest)

/-- The other direction: what decodes is well formed and its bytes are its code, but for the bit of `W` that R63 does not
examine in four states. -/
def Obligations.EncodeInvertsDecode : Prop :=
  ∀ (w : Nat) (b : Byte) (bs rest : List Byte) (i : Instr), decodeInstr w (b :: bs) = .ok (i, rest) →
    i.wellFormed w = true ∧ bs = operandBytes w i ++ rest ∧
    (b.toNat = i.row.code ∨
      (b.toNat = i.row.code + 1 ∧ i.row ∈ [Row.cycleStart, .send, .deliver, .retry]))

/- Whole cycles, moves at any moment, parameters -/

/-- R100 for every cycle that ends: in any run without a reset that starts with a CYCLE_START and comes back to `Idle`, however
the replies are split, whenever their bytes arrive and whatever is drawn, there is an `N` such that `N` attempts had a reply
that differs and the last one a reply that matches; the run has `N + 1` SENDs, transmits `N + 1` frames with the fields of
CYCLE_START, takes `8 * (N + 1)` bytes from RXQ and what arrives, emits `N` warnings (`low`, then `high`) and then one record,
the last reply's, and ends with RETRY = N. -/
def Obligations.CompletedCycleObeysRetryCountLaw : Prop :=
  ∀ (n : Nat) (σ : Nat → State),
    (σ 0).invoke = none → (σ 0).st = .idle → (σ 1).st = .sending →
    (∀ k, k < n → step (σ k) = .next (σ (k + 1)) ∧ resetNext (σ k) = false) →
    1 < n → (∀ k, 0 < k → k < n → (σ k).st ≠ .idle) → (σ n).st = .idle →
    ∃ (failed : List Attempt) (last : Attempt),
      (∀ a ∈ failed, a.accepted = false) ∧ last.accepted = true ∧
      sendCount σ n = failed.length + 1 ∧ (σ n).retry = failed.length ∧
      (σ n).tx = (σ 0).tx ++ attemptFrames (σ 1).pkt (failed ++ [last]) ∧
      (σ 0).rxq ++ arrivals σ n = attemptReplies (failed ++ [last]) ++ (σ n).rxq ∧
      (σ n).events = (σ 0).events ++ retryWarnings failed.length ++ [.sink (statusOf last.reply)] ∧
      (σ n).latch = (σ 1).latch ∧ (σ n).prev = (σ 1).prev

/-- R46, R9 (log 6): a move of the environment can land right after any operation of the block, and after the wait in `Idle`:
when the script gives the block one turn, with or without the answers the operation asks for, and then a move, the next step
but one is that move. -/
def Obligations.AMoveCanFollowAnyOperation : Prop :=
  ∀ (s t : State) (as : List EnvInput) (m : EnvInput) (rest : List EnvInput), s.invoke = none → isMove m = true →
    (as = [] ∨ (s.st = .sending ∧ ∃ v o, as = [.draw v, .wr o]) ∨
      (s.st = .awaitingReply ∧ s.rxcnt < 8 ∧ ∃ k, as = [.read k])) →
    s.script = .turn :: (as ++ m :: rest) → step s = .next t →
    t.script = m :: rest ∧ (∃ u, step t = .next u ∧ u.script = rest) ∧
    (∀ c, m = .arrive c → step t = .next { t with script := rest, rxq := t.rxq ++ c })

/-- R6, R9 (log 2): the parameters are no state: no step, the reset input's among them, changes them. -/
def Obligations.ParametersNeverChange : Prop :=
  ∀ s t : State, step s = .next t → t.params = s.params

/-- R99, R122: the livelock. When the environment answers the attempts of a cycle with replies that all differ and goes on
with the same lines for ever, the cycle never ends: at any number of steps the block is in `Sending`, `AwaitingReply` or
`Retrying`, and after any number of rounds it has transmitted a frame and warned once for each attempt. Each line is a draw,
the arrival of a reply and a read of 8 (log 6, 25). -/
def Obligations.MismatchingForeverNeverEnds : Prop :=
  ∀ (s : State) (as : List Attempt), s.invoke = none → s.st = .sending → s.rxq = [] → as ≠ [] →
    (∀ a ∈ as, a.accepted = false) → s.script = attemptLines as → s.ending = .again (attemptLines as) →
    (∀ m, ∃ t, run m s = .next t ∧ (t.st = .sending ∨ t.st = .awaitingReply ∨ t.st = .retrying)) ∧
    (∀ n, ∃ t, run (n * (5 * as.length + 1)) s = .next t ∧
      t.st = .sending ∧ t.retry = s.retry + n * as.length ∧ t.rxq = [] ∧ t.script = s.script ∧
      t.tx = s.tx ++ attemptFrames s.pkt (List.replicate n as).flatten ∧
      t.events = s.events ++ (List.range (n * as.length)).map fun k => .warn (severity (s.retry + k + 1)))
end

