-- ==== Sys2Proof/Laws/State.lean ====
section
/-! SUPPORT. One lemma per field and named update of State, true by `rfl`, so that no proof unfolds a record update. -/

namespace Sys2Proof.Machine

@[simp] theorem goto_pkt (x : ExState) (s : State) : (goto x s).pkt = s.pkt := rfl
@[simp] theorem goto_rxbuf (x : ExState) (s : State) : (goto x s).rxbuf = s.rxbuf := rfl
@[simp] theorem goto_st (x : ExState) (s : State) : (goto x s).st = x := rfl
@[simp] theorem goto_rxcnt (x : ExState) (s : State) : (goto x s).rxcnt = s.rxcnt := rfl
@[simp] theorem goto_retry (x : ExState) (s : State) : (goto x s).retry = s.retry := rfl
@[simp] theorem goto_latch (x : ExState) (s : State) : (goto x s).latch = s.latch := rfl
@[simp] theorem goto_prev (x : ExState) (s : State) : (goto x s).prev = s.prev := rfl
@[simp] theorem goto_rxq (x : ExState) (s : State) : (goto x s).rxq = s.rxq := rfl
@[simp] theorem goto_tx (x : ExState) (s : State) : (goto x s).tx = s.tx := rfl
@[simp] theorem goto_events (x : ExState) (s : State) : (goto x s).events = s.events := rfl
@[simp] theorem goto_offer (x : ExState) (s : State) : (goto x s).offer = s.offer := rfl
@[simp] theorem goto_script (x : ExState) (s : State) : (goto x s).script = s.script := rfl
@[simp] theorem goto_freeCount (x : ExState) (s : State) : (goto x s).freeCount = s.freeCount := rfl
@[simp] theorem goto_invoke (x : ExState) (s : State) : (goto x s).invoke = s.invoke := rfl
@[simp] theorem goto_ret (x : ExState) (s : State) : (goto x s).ret = s.ret := rfl
@[simp] theorem goto_params (x : ExState) (s : State) : (goto x s).params = s.params := rfl
@[simp] theorem goto_ending (x : ExState) (s : State) : (goto x s).ending = s.ending := rfl

@[simp] theorem emit_pkt (e : Event) (s : State) : (emit e s).pkt = s.pkt := rfl
@[simp] theorem emit_rxbuf (e : Event) (s : State) : (emit e s).rxbuf = s.rxbuf := rfl
@[simp] theorem emit_st (e : Event) (s : State) : (emit e s).st = s.st := rfl
@[simp] theorem emit_rxcnt (e : Event) (s : State) : (emit e s).rxcnt = s.rxcnt := rfl
@[simp] theorem emit_retry (e : Event) (s : State) : (emit e s).retry = s.retry := rfl
@[simp] theorem emit_latch (e : Event) (s : State) : (emit e s).latch = s.latch := rfl
@[simp] theorem emit_prev (e : Event) (s : State) : (emit e s).prev = s.prev := rfl
@[simp] theorem emit_rxq (e : Event) (s : State) : (emit e s).rxq = s.rxq := rfl
@[simp] theorem emit_tx (e : Event) (s : State) : (emit e s).tx = s.tx := rfl
@[simp] theorem emit_events (e : Event) (s : State) : (emit e s).events = s.events ++ [e] := rfl
@[simp] theorem emit_offer (e : Event) (s : State) : (emit e s).offer = s.offer := rfl
@[simp] theorem emit_script (e : Event) (s : State) : (emit e s).script = s.script := rfl
@[simp] theorem emit_freeCount (e : Event) (s : State) : (emit e s).freeCount = s.freeCount := rfl
@[simp] theorem emit_invoke (e : Event) (s : State) : (emit e s).invoke = s.invoke := rfl
@[simp] theorem emit_ret (e : Event) (s : State) : (emit e s).ret = s.ret := rfl
@[simp] theorem emit_params (e : Event) (s : State) : (emit e s).params = s.params := rfl
@[simp] theorem emit_ending (e : Event) (s : State) : (emit e s).ending = s.ending := rfl

@[simp] theorem returnValue_pkt (r : FnResult) (s : State) : (returnValue r s).pkt = s.pkt := rfl
@[simp] theorem returnValue_rxbuf (r : FnResult) (s : State) : (returnValue r s).rxbuf = s.rxbuf := rfl
@[simp] theorem returnValue_st (r : FnResult) (s : State) : (returnValue r s).st = s.st := rfl
@[simp] theorem returnValue_rxcnt (r : FnResult) (s : State) : (returnValue r s).rxcnt = s.rxcnt := rfl
@[simp] theorem returnValue_retry (r : FnResult) (s : State) : (returnValue r s).retry = s.retry := rfl
@[simp] theorem returnValue_latch (r : FnResult) (s : State) : (returnValue r s).latch = s.latch := rfl
@[simp] theorem returnValue_prev (r : FnResult) (s : State) : (returnValue r s).prev = s.prev := rfl
@[simp] theorem returnValue_rxq (r : FnResult) (s : State) : (returnValue r s).rxq = s.rxq := rfl
@[simp] theorem returnValue_tx (r : FnResult) (s : State) : (returnValue r s).tx = s.tx := rfl
@[simp] theorem returnValue_events (r : FnResult) (s : State) : (returnValue r s).events = s.events := rfl
@[simp] theorem returnValue_offer (r : FnResult) (s : State) : (returnValue r s).offer = s.offer := rfl
@[simp] theorem returnValue_script (r : FnResult) (s : State) : (returnValue r s).script = s.script := rfl
@[simp] theorem returnValue_freeCount (r : FnResult) (s : State) : (returnValue r s).freeCount = s.freeCount := rfl
@[simp] theorem returnValue_invoke (r : FnResult) (s : State) : (returnValue r s).invoke = s.invoke := rfl
@[simp] theorem returnValue_ret (r : FnResult) (s : State) : (returnValue r s).ret = some r := rfl
@[simp] theorem returnValue_params (r : FnResult) (s : State) : (returnValue r s).params = s.params := rfl
@[simp] theorem returnValue_ending (r : FnResult) (s : State) : (returnValue r s).ending = s.ending := rfl

@[simp] theorem updateLatch_pkt (b : Bool) (s : State) : (updateLatch b s).pkt = s.pkt := rfl
@[simp] theorem updateLatch_rxbuf (b : Bool) (s : State) : (updateLatch b s).rxbuf = s.rxbuf := rfl
@[simp] theorem updateLatch_st (b : Bool) (s : State) : (updateLatch b s).st = s.st := rfl
@[simp] theorem updateLatch_rxcnt (b : Bool) (s : State) : (updateLatch b s).rxcnt = s.rxcnt := rfl
@[simp] theorem updateLatch_retry (b : Bool) (s : State) : (updateLatch b s).retry = s.retry := rfl
@[simp] theorem updateLatch_latch (b : Bool) (s : State) : (updateLatch b s).latch = latchNext s.latch s.prev b := rfl
@[simp] theorem updateLatch_prev (b : Bool) (s : State) : (updateLatch b s).prev = b := rfl
@[simp] theorem updateLatch_rxq (b : Bool) (s : State) : (updateLatch b s).rxq = s.rxq := rfl
@[simp] theorem updateLatch_tx (b : Bool) (s : State) : (updateLatch b s).tx = s.tx := rfl
@[simp] theorem updateLatch_events (b : Bool) (s : State) : (updateLatch b s).events = s.events := rfl
@[simp] theorem updateLatch_offer (b : Bool) (s : State) : (updateLatch b s).offer = s.offer := rfl
@[simp] theorem updateLatch_script (b : Bool) (s : State) : (updateLatch b s).script = s.script := rfl
@[simp] theorem updateLatch_freeCount (b : Bool) (s : State) : (updateLatch b s).freeCount = s.freeCount := rfl
@[simp] theorem updateLatch_invoke (b : Bool) (s : State) : (updateLatch b s).invoke = s.invoke := rfl
@[simp] theorem updateLatch_ret (b : Bool) (s : State) : (updateLatch b s).ret = s.ret := rfl
@[simp] theorem updateLatch_params (b : Bool) (s : State) : (updateLatch b s).params = s.params := rfl
@[simp] theorem updateLatch_ending (b : Bool) (s : State) : (updateLatch b s).ending = s.ending := rfl

@[simp] theorem txWriteAll_pkt (bs : List Byte) (o : WriteOutcome) (s : State) : (txWriteAll bs o s).pkt = s.pkt := rfl
@[simp] theorem txWriteAll_rxbuf (bs : List Byte) (o : WriteOutcome) (s : State) : (txWriteAll bs o s).rxbuf = s.rxbuf := rfl
@[simp] theorem txWriteAll_st (bs : List Byte) (o : WriteOutcome) (s : State) : (txWriteAll bs o s).st = s.st := rfl
@[simp] theorem txWriteAll_rxcnt (bs : List Byte) (o : WriteOutcome) (s : State) : (txWriteAll bs o s).rxcnt = s.rxcnt := rfl
@[simp] theorem txWriteAll_retry (bs : List Byte) (o : WriteOutcome) (s : State) : (txWriteAll bs o s).retry = s.retry := rfl
@[simp] theorem txWriteAll_latch (bs : List Byte) (o : WriteOutcome) (s : State) : (txWriteAll bs o s).latch = s.latch := rfl
@[simp] theorem txWriteAll_prev (bs : List Byte) (o : WriteOutcome) (s : State) : (txWriteAll bs o s).prev = s.prev := rfl
@[simp] theorem txWriteAll_rxq (bs : List Byte) (o : WriteOutcome) (s : State) : (txWriteAll bs o s).rxq = s.rxq := rfl
@[simp] theorem txWriteAll_tx (bs : List Byte) (o : WriteOutcome) (s : State) : (txWriteAll bs o s).tx = s.tx ++ bs.take (bytesEmitted o) := rfl
@[simp] theorem txWriteAll_events (bs : List Byte) (o : WriteOutcome) (s : State) : (txWriteAll bs o s).events = s.events := rfl
@[simp] theorem txWriteAll_offer (bs : List Byte) (o : WriteOutcome) (s : State) : (txWriteAll bs o s).offer = s.offer := rfl
@[simp] theorem txWriteAll_script (bs : List Byte) (o : WriteOutcome) (s : State) : (txWriteAll bs o s).script = s.script := rfl
@[simp] theorem txWriteAll_freeCount (bs : List Byte) (o : WriteOutcome) (s : State) : (txWriteAll bs o s).freeCount = s.freeCount := rfl
@[simp] theorem txWriteAll_invoke (bs : List Byte) (o : WriteOutcome) (s : State) : (txWriteAll bs o s).invoke = s.invoke := rfl
@[simp] theorem txWriteAll_ret (bs : List Byte) (o : WriteOutcome) (s : State) : (txWriteAll bs o s).ret = s.ret := rfl
@[simp] theorem txWriteAll_params (bs : List Byte) (o : WriteOutcome) (s : State) : (txWriteAll bs o s).params = s.params := rfl
@[simp] theorem txWriteAll_ending (bs : List Byte) (o : WriteOutcome) (s : State) : (txWriteAll bs o s).ending = s.ending := rfl

@[simp] theorem rxReadRest_pkt (m k : Nat) (s : State) : (rxReadRest m k s).pkt = s.pkt := rfl
@[simp] theorem rxReadRest_rxbuf (m k : Nat) (s : State) : (rxReadRest m k s).rxbuf = s.rxbuf := rfl
@[simp] theorem rxReadRest_st (m k : Nat) (s : State) : (rxReadRest m k s).st = s.st := rfl
@[simp] theorem rxReadRest_rxcnt (m k : Nat) (s : State) : (rxReadRest m k s).rxcnt = s.rxcnt := rfl
@[simp] theorem rxReadRest_retry (m k : Nat) (s : State) : (rxReadRest m k s).retry = s.retry := rfl
@[simp] theorem rxReadRest_latch (m k : Nat) (s : State) : (rxReadRest m k s).latch = s.latch := rfl
@[simp] theorem rxReadRest_prev (m k : Nat) (s : State) : (rxReadRest m k s).prev = s.prev := rfl
@[simp] theorem rxReadRest_rxq (m k : Nat) (s : State) : (rxReadRest m k s).rxq = s.rxq.drop (rxReadCount m k s) := rfl
@[simp] theorem rxReadRest_tx (m k : Nat) (s : State) : (rxReadRest m k s).tx = s.tx := rfl
@[simp] theorem rxReadRest_events (m k : Nat) (s : State) : (rxReadRest m k s).events = s.events := rfl
@[simp] theorem rxReadRest_offer (m k : Nat) (s : State) : (rxReadRest m k s).offer = s.offer := rfl
@[simp] theorem rxReadRest_script (m k : Nat) (s : State) : (rxReadRest m k s).script = s.script := rfl
@[simp] theorem rxReadRest_freeCount (m k : Nat) (s : State) : (rxReadRest m k s).freeCount = s.freeCount := rfl
@[simp] theorem rxReadRest_invoke (m k : Nat) (s : State) : (rxReadRest m k s).invoke = s.invoke := rfl
@[simp] theorem rxReadRest_ret (m k : Nat) (s : State) : (rxReadRest m k s).ret = s.ret := rfl
@[simp] theorem rxReadRest_params (m k : Nat) (s : State) : (rxReadRest m k s).params = s.params := rfl
@[simp] theorem rxReadRest_ending (m k : Nat) (s : State) : (rxReadRest m k s).ending = s.ending := rfl

@[simp] theorem memWrite_pkt_pkt (a : Nat) (bs : List Byte) (s : State) : (memWrite .pkt a bs s).pkt = writeFrom s.pkt a bs := rfl
@[simp] theorem memWrite_pkt_rxbuf (a : Nat) (bs : List Byte) (s : State) : (memWrite .pkt a bs s).rxbuf = s.rxbuf := rfl
@[simp] theorem memWrite_pkt_st (a : Nat) (bs : List Byte) (s : State) : (memWrite .pkt a bs s).st = s.st := rfl
@[simp] theorem memWrite_pkt_rxcnt (a : Nat) (bs : List Byte) (s : State) : (memWrite .pkt a bs s).rxcnt = s.rxcnt := rfl
@[simp] theorem memWrite_pkt_retry (a : Nat) (bs : List Byte) (s : State) : (memWrite .pkt a bs s).retry = s.retry := rfl
@[simp] theorem memWrite_pkt_latch (a : Nat) (bs : List Byte) (s : State) : (memWrite .pkt a bs s).latch = s.latch := rfl
@[simp] theorem memWrite_pkt_prev (a : Nat) (bs : List Byte) (s : State) : (memWrite .pkt a bs s).prev = s.prev := rfl
@[simp] theorem memWrite_pkt_rxq (a : Nat) (bs : List Byte) (s : State) : (memWrite .pkt a bs s).rxq = s.rxq := rfl
@[simp] theorem memWrite_pkt_tx (a : Nat) (bs : List Byte) (s : State) : (memWrite .pkt a bs s).tx = s.tx := rfl
@[simp] theorem memWrite_pkt_events (a : Nat) (bs : List Byte) (s : State) : (memWrite .pkt a bs s).events = s.events := rfl
@[simp] theorem memWrite_pkt_offer (a : Nat) (bs : List Byte) (s : State) : (memWrite .pkt a bs s).offer = s.offer := rfl
@[simp] theorem memWrite_pkt_script (a : Nat) (bs : List Byte) (s : State) : (memWrite .pkt a bs s).script = s.script := rfl
@[simp] theorem memWrite_pkt_freeCount (a : Nat) (bs : List Byte) (s : State) : (memWrite .pkt a bs s).freeCount = s.freeCount := rfl
@[simp] theorem memWrite_pkt_invoke (a : Nat) (bs : List Byte) (s : State) : (memWrite .pkt a bs s).invoke = s.invoke := rfl
@[simp] theorem memWrite_pkt_ret (a : Nat) (bs : List Byte) (s : State) : (memWrite .pkt a bs s).ret = s.ret := rfl
@[simp] theorem memWrite_pkt_params (a : Nat) (bs : List Byte) (s : State) : (memWrite .pkt a bs s).params = s.params := rfl
@[simp] theorem memWrite_pkt_ending (a : Nat) (bs : List Byte) (s : State) : (memWrite .pkt a bs s).ending = s.ending := rfl

@[simp] theorem memWrite_rxbuf_pkt (a : Nat) (bs : List Byte) (s : State) : (memWrite .rxbuf a bs s).pkt = s.pkt := rfl
@[simp] theorem memWrite_rxbuf_rxbuf (a : Nat) (bs : List Byte) (s : State) : (memWrite .rxbuf a bs s).rxbuf = writeFrom s.rxbuf a bs := rfl
@[simp] theorem memWrite_rxbuf_st (a : Nat) (bs : List Byte) (s : State) : (memWrite .rxbuf a bs s).st = s.st := rfl
@[simp] theorem memWrite_rxbuf_rxcnt (a : Nat) (bs : List Byte) (s : State) : (memWrite .rxbuf a bs s).rxcnt = s.rxcnt := rfl
@[simp] theorem memWrite_rxbuf_retry (a : Nat) (bs : List Byte) (s : State) : (memWrite .rxbuf a bs s).retry = s.retry := rfl
@[simp] theorem memWrite_rxbuf_latch (a : Nat) (bs : List Byte) (s : State) : (memWrite .rxbuf a bs s).latch = s.latch := rfl
@[simp] theorem memWrite_rxbuf_prev (a : Nat) (bs : List Byte) (s : State) : (memWrite .rxbuf a bs s).prev = s.prev := rfl
@[simp] theorem memWrite_rxbuf_rxq (a : Nat) (bs : List Byte) (s : State) : (memWrite .rxbuf a bs s).rxq = s.rxq := rfl
@[simp] theorem memWrite_rxbuf_tx (a : Nat) (bs : List Byte) (s : State) : (memWrite .rxbuf a bs s).tx = s.tx := rfl
@[simp] theorem memWrite_rxbuf_events (a : Nat) (bs : List Byte) (s : State) : (memWrite .rxbuf a bs s).events = s.events := rfl
@[simp] theorem memWrite_rxbuf_offer (a : Nat) (bs : List Byte) (s : State) : (memWrite .rxbuf a bs s).offer = s.offer := rfl
@[simp] theorem memWrite_rxbuf_script (a : Nat) (bs : List Byte) (s : State) : (memWrite .rxbuf a bs s).script = s.script := rfl
@[simp] theorem memWrite_rxbuf_freeCount (a : Nat) (bs : List Byte) (s : State) : (memWrite .rxbuf a bs s).freeCount = s.freeCount := rfl
@[simp] theorem memWrite_rxbuf_invoke (a : Nat) (bs : List Byte) (s : State) : (memWrite .rxbuf a bs s).invoke = s.invoke := rfl
@[simp] theorem memWrite_rxbuf_ret (a : Nat) (bs : List Byte) (s : State) : (memWrite .rxbuf a bs s).ret = s.ret := rfl
@[simp] theorem memWrite_rxbuf_params (a : Nat) (bs : List Byte) (s : State) : (memWrite .rxbuf a bs s).params = s.params := rfl
@[simp] theorem memWrite_rxbuf_ending (a : Nat) (bs : List Byte) (s : State) : (memWrite .rxbuf a bs s).ending = s.ending := rfl

@[simp] theorem applyReset_pkt (s : State) : (applyReset s).pkt = freeFrame s.freeCount := rfl
@[simp] theorem applyReset_rxbuf (s : State) : (applyReset s).rxbuf = freeFrame (s.freeCount + Config.frameLen) := rfl
@[simp] theorem applyReset_st (s : State) : (applyReset s).st = .idle := rfl
@[simp] theorem applyReset_rxcnt (s : State) : (applyReset s).rxcnt = 0 := rfl
@[simp] theorem applyReset_retry (s : State) : (applyReset s).retry = 0 := rfl
@[simp] theorem applyReset_latch (s : State) : (applyReset s).latch = false := rfl
@[simp] theorem applyReset_prev (s : State) : (applyReset s).prev = false := rfl
@[simp] theorem applyReset_rxq (s : State) : (applyReset s).rxq = s.rxq := rfl
@[simp] theorem applyReset_tx (s : State) : (applyReset s).tx = s.tx := rfl
@[simp] theorem applyReset_events (s : State) : (applyReset s).events = s.events := rfl
@[simp] theorem applyReset_offer (s : State) : (applyReset s).offer = s.offer := rfl
@[simp] theorem applyReset_script (s : State) : (applyReset s).script = s.script := rfl
@[simp] theorem applyReset_freeCount (s : State) : (applyReset s).freeCount = s.freeCount + 2 * Config.frameLen := rfl
@[simp] theorem applyReset_invoke (s : State) : (applyReset s).invoke = s.invoke := rfl
@[simp] theorem applyReset_ret (s : State) : (applyReset s).ret = s.ret := rfl
@[simp] theorem applyReset_params (s : State) : (applyReset s).params = s.params := rfl
@[simp] theorem applyReset_ending (s : State) : (applyReset s).ending = s.ending := rfl

@[simp] theorem raiseWriteFailure_eq (s : State) : raiseWriteFailure s = goto .fatal s := rfl
@[simp] theorem enterRetryPath_eq (s : State) : enterRetryPath s = goto .retrying s := rfl
@[simp] theorem leaveExchange_eq (s : State) : leaveExchange s = goto .idle s := rfl

end Sys2Proof.Machine
end

