-- ==== Sys2Proof/Laws/Buffers.lean ====
section
/-! SUPPORT. What the buffer and stream operations do, byte by byte. -/

namespace Sys2Proof.Machine

@[simp] theorem frame_toList_length (f : Frame) : f.toList.length = 8 := rfl

theorem frame_ext {f g : Frame} (h : f.toList = g.toList) : f = g := by
  cases f; cases g; simpa [Frame.toList] using h

/-- One byte written: read back at its offset, every other offset as before. -/
theorem setByte_read (f : Frame) (a i : Nat) (b : Byte) :
    (setByte f a b).toList[i]? = if i = a ∧ i < 8 then some b else f.toList[i]? := by
  rcases a with _ | _ | _ | _ | _ | _ | _ | _ | a <;>
  rcases i with _ | _ | _ | _ | _ | _ | _ | _ | i <;>
  simp [setByte, Frame.toList]

/-- Consecutive bytes written: read back in their window, every other offset as before. -/
theorem writeFrom_read (bs : List Byte) (f : Frame) (a i : Nat) :
    (writeFrom f a bs).toList[i]? = if a ≤ i ∧ i < a + bs.length ∧ i < 8 then bs[i - a]? else f.toList[i]? := by
  induction bs generalizing f a with
  | nil =>
    have : ¬ (a ≤ i ∧ i < a + ([] : List Byte).length ∧ i < 8) := by simp; omega
    rw [if_neg this]; rfl
  | cons b bs ih =>
    rw [writeFrom, ih, setByte_read]
    rcases Nat.lt_trichotomy i a with h | h | h
    · simp [show ¬ a + 1 ≤ i by omega, show ¬ a ≤ i by omega, show i ≠ a by omega]
    · subst h; by_cases h8 : i < 8 <;> simp [h8]
    · obtain ⟨d, rfl⟩ : ∃ d, i = a + 1 + d := ⟨i - a - 1, by omega⟩
      have e : a + 1 + d - a = d + 1 := by omega
      by_cases hc : d < bs.length ∧ a + 1 + d < 8
      · rw [if_pos ⟨by omega, by omega, hc.2⟩, if_pos ⟨by omega, by simp; omega, hc.2⟩, e]
        simp
      · rw [if_neg (by omega), if_neg (by omega), if_neg (by simp; omega)]

/-- Bytes written at the end of a prefix extend it. -/
theorem writeFrom_take (f : Frame) (a : Nat) (bs : List Byte) (h : a + bs.length ≤ 8) :
    (writeFrom f a bs).toList.take (a + bs.length) = f.toList.take a ++ bs := by
  apply List.ext_getElem?
  intro i
  rw [List.getElem?_take, writeFrom_read]
  by_cases hi : i < a + bs.length
  · rw [if_pos hi]
    by_cases h2 : a ≤ i
    · rw [if_pos ⟨h2, hi, by omega⟩, List.getElem?_append_right (by simp; omega)]
      congr 1; simp; omega
    · rw [if_neg (by omega), List.getElem?_append_left (by simp; omega), List.getElem?_take, if_pos (by omega)]
  · rw [if_neg hi, List.getElem?_eq_none]; simp; omega

/-- Reading one byte after a write to the same space. -/
theorem readByte_memWrite_same (sp : Space) (a i : Nat) (bs : List Byte) (s : State) :
    readByte sp i (memWrite sp a bs s)
      = if a ≤ i ∧ i < a + bs.length ∧ i < 8 then bs[i - a]? else readByte sp i s := by
  cases sp <;> exact writeFrom_read bs _ a i

/-- A write to one space leaves the other alone. -/
theorem readByte_memWrite_other {sp sq : Space} (h : sp ≠ sq) (a i : Nat) (bs : List Byte) (s : State) :
    readByte sq i (memWrite sp a bs s) = readByte sq i s := by
  cases sp <;> cases sq <;> first | exact absurd rfl h | rfl

/-- A byte read depends on its buffer only. -/
theorem readByte_congr {s t : State} (hp : t.pkt = s.pkt) (hr : t.rxbuf = s.rxbuf) (sp : Space) (i : Nat) :
    readByte sp i t = readByte sp i s := by
  cases sp <;> simp [readByte, buffer, hp, hr]

/-- `MemRead` of a whole frame is its bytes in offset order. -/
theorem memRead_frame (sp : Space) (s : State) : memRead sp 0 Config.frameLen s = (buffer sp s).toList := rfl

/-- `RxRead` returns as many bytes as it counts (R37). -/
@[simp] theorem rxReadBytes_length (m k : Nat) (s : State) : (rxReadBytes m k s).length = rxReadCount m k s := by
  simp [rxReadBytes, rxReadCount]

/-- The bounds of R37. -/
theorem rxReadCount_le (m k : Nat) (s : State) : rxReadCount m k s ≤ m ∧ rxReadCount m k s ≤ s.rxq.length := by
  unfold rxReadCount; omega

end Sys2Proof.Machine
end

