-- ==== Sys2Proof/Laws/Encoder.lean ====
section
/-! SUPPORT. The values of the packing functions: ranges, bits, the latch. -/

namespace Sys2Proof.Machine

/-- A drive value is 0..20 (R71). -/
theorem driveValue_range (one : Nat) (n : Int) : 0 ≤ driveValue one n ∧ driveValue one n ≤ 20 := by
  unfold driveValue
  simp only [Config.driveMin, Config.driveMax]
  omega

/-- The byte of a drive value is the value. -/
theorem driveByte_toNat (p : Params) (n : Axis) :
    ((driveByte p n).toNat : Int) = driveValue p.axisOne (sext p.axisW n) := by
  have := driveValue_range p.axisOne (sext p.axisW n)
  rw [driveByte, BitVec.toNat_ofInt]
  omega

theorem driveByte_le (p : Params) (n : Axis) : (driveByte p n).toNat ≤ 20 := by
  have := driveValue_range p.axisOne (sext p.axisW n)
  have := driveByte_toNat p n
  omega

/-- Fitting, as inequalities (R6, R59). -/
theorem axisFits_iff {w : Nat} {n : Int} : axisFits w n = true ↔ -(2 ^ w : Int) ≤ 2 * n ∧ 2 * n < (2 ^ w : Int) := by
  unfold axisFits
  rw [Bool.and_eq_true, decide_eq_true_iff, decide_eq_true_iff]

/-- `sext` of an axis that fits is the axis. -/
theorem sext_eq {w : Nat} {n : Int} (h : axisFits w n = true) : sext w n = n := by
  obtain ⟨h1, h2⟩ := axisFits_iff.1 h
  rw [sext, BitVec.toInt_ofInt]
  refine Int.bmod_eq_of_le_mul_two ?_ ?_ <;> push_cast <;> omega

/-- What `sext` answers fits. -/
theorem axisFits_sext (w : Nat) (n : Int) : axisFits w (sext w n) = true :=
  axisFits_iff.2 ⟨BitVec.le_two_mul_toInt, BitVec.two_mul_toInt_lt⟩

/-- A byte of at most 20 fits the pattern `000DDDDD` (R51). -/
theorem drivePattern_of_le : ∀ b : Byte, b.toNat ≤ 20 → b &&& 0xE0 = 0 := by decide

/-- PAIR by its truth table (R73). -/
@[simp] theorem pairOut_fst (m0 m1 : Bool) : (pairOut m0 m1).1 = (m0 && !m1) := rfl
@[simp] theorem pairOut_snd (m0 m1 : Bool) : (pairOut m0 m1).2 = (m1 && !m0) := rfl

/-- PAIR's outputs are never both 1 (R73). -/
theorem pairOut_exclusive (m0 m1 : Bool) : ((pairOut m0 m1).1 && (pairOut m0 m1).2) = false := by
  cases m0 <;> cases m1 <;> rfl

/-- The value of a four-bit field from its bits. -/
theorem packBits_four : ∀ a b c d : Bool,
    (BitVec.ofNat 8 (packBits [a, b, c, d]) : Byte).toNat = a.toNat + 2 * b.toNat + 4 * c.toNat + 8 * d.toNat ∧
    (BitVec.ofNat 8 (packBits [a, b, c, d]) : Byte).getLsbD 0 = a ∧
    (BitVec.ofNat 8 (packBits [a, b, c, d]) : Byte).getLsbD 1 = b ∧
    (BitVec.ofNat 8 (packBits [a, b, c, d]) : Byte).getLsbD 2 = c ∧
    (BitVec.ofNat 8 (packBits [a, b, c, d]) : Byte).getLsbD 3 = d ∧
    (BitVec.ofNat 8 (packBits [a, b, c, d]) : Byte) &&& 0xF0 = 0 := by decide

/-- The value of a five-bit field from its bits. -/
theorem packBits_five : ∀ a b c d e : Bool,
    (BitVec.ofNat 8 (packBits [a, b, c, d, e]) : Byte).toNat
      = a.toNat + 2 * b.toNat + 4 * c.toNat + 8 * d.toNat + 16 * e.toNat ∧
    (BitVec.ofNat 8 (packBits [a, b, c, d, e]) : Byte).getLsbD 0 = a ∧
    (BitVec.ofNat 8 (packBits [a, b, c, d, e]) : Byte).getLsbD 1 = b ∧
    (BitVec.ofNat 8 (packBits [a, b, c, d, e]) : Byte).getLsbD 2 = c ∧
    (BitVec.ofNat 8 (packBits [a, b, c, d, e]) : Byte).getLsbD 3 = d ∧
    (BitVec.ofNat 8 (packBits [a, b, c, d, e]) : Byte).getLsbD 4 = e ∧
    (BitVec.ofNat 8 (packBits [a, b, c, d, e]) : Byte) &&& 0xE0 = 0 := by decide

/-- The bits of `AUGER_DRIVE` (R52, R74). -/
theorem augerByte_bits (sn : Snapshot) :
    (augerByte sn).getLsbD 0 = (pairOut sn.augRFwd sn.augRRev).1 ∧
    (augerByte sn).getLsbD 1 = (pairOut sn.augRFwd sn.augRRev).2 ∧
    (augerByte sn).getLsbD 2 = (pairOut sn.augLFwd sn.augLRev).1 ∧
    (augerByte sn).getLsbD 3 = (pairOut sn.augLFwd sn.augLRev).2 ∧
    augerByte sn &&& 0xF0 = 0 := (packBits_four _ _ _ _).2

/-- The bits of `RAIL` (R53, R76). -/
theorem railByte_bits (sn : Snapshot) (l : Bool) :
    (railByte sn l).getLsbD 0 = ((pairOut sn.dumpLower sn.dumpTilt).1 || (pairOut sn.railRight sn.railLeft).1) ∧
    (railByte sn l).getLsbD 1 = ((pairOut sn.dumpLower sn.dumpTilt).2 || (pairOut sn.railRight sn.railLeft).2) ∧
    (railByte sn l).getLsbD 2 = (pairOut sn.railUp sn.railDown).1 ∧
    (railByte sn l).getLsbD 3 = (pairOut sn.railUp sn.railDown).2 ∧
    (railByte sn l).getLsbD 4 = l ∧
    railByte sn l &&& 0xE0 = 0 := (packBits_five _ _ _ _ _).2

/-- The latch flips on a rising edge only (R75). -/
theorem latchNext_rising (latch : Bool) : latchNext latch false true = !latch := by cases latch <;> rfl
theorem latchNext_held (latch btn : Bool) : latchNext latch true btn = latch := by cases latch <;> cases btn <;> rfl
theorem latchNext_released (latch prev : Bool) : latchNext latch prev false = latch := by
  cases latch <;> cases prev <;> rfl

/-- A draw's byte is the draw, hence never 255 (R55). -/
@[simp] theorem drawByte_toNat (v : Draw) : (drawByte v).toNat = v.val := by
  have h : v.val < 255 := v.isLt
  rw [drawByte, BitVec.toNat_ofNat]
  omega

theorem drawByte_ne (v : Draw) : drawByte v ≠ 255 := by
  intro h
  have h1 : v.val < 255 := v.isLt
  have h2 := congrArg BitVec.toNat h
  rw [drawByte_toNat] at h2
  exact absurd h2 (Nat.ne_of_lt h1)

end Sys2Proof.Machine
end

