-- ==== Sys2Proof/Laws/Exec.lean ====
section
/-! SUPPORT. What each transition can do, said once: it answers a next state exactly when it is enabled, and this one. -/

namespace Sys2Proof.Machine

/-- The state CYCLE_START leads to. -/
def afterCycleStart (sn : Snapshot) (s : State) : State :=
  goto .sending { updateLatch sn.toggleBtn (memWrite .pkt 0 (encodeIn sn s).toList s) with retry := 0 }

/-- The state SEND leads to. -/
def afterSend (v : Draw) (o : WriteOutcome) (s : State) : State :=
  { s with
    pkt := { s.pkt with b7 := drawByte v }
    rxcnt := 0
    st := match o with
      | .ok => .awaitingReply
      | .fail _ => .fatal
    tx := s.tx ++ ({ s.pkt with b7 := drawByte v } : Frame).toList.take (bytesEmitted o) }

/-- The state RECV leads to. -/
def afterRecv (k : Nat) (s : State) : State :=
  { s with
    rxbuf := writeFrom s.rxbuf s.rxcnt (rxReadBytes (8 - s.rxcnt) k s)
    rxcnt := s.rxcnt + rxReadCount (8 - s.rxcnt) k s
    rxq := s.rxq.drop (rxReadCount (8 - s.rxcnt) k s) }

/-- The state RETRY leads to. -/
def afterRetry (s : State) : State :=
  { s with
    retry := s.retry + 1
    st := .sending
    events := s.events ++ [.warn (severity (s.retry + 1))] }

/-- The state DELIVER leads to. -/
def afterDeliver (s : State) : State :=
  { s with st := .idle, events := s.events ++ [.sink (statusOf s.rxbuf)] }

theorem execCycleStart_next {sn : Snapshot} {s t : State} :
    execCycleStart sn s = .next t ↔ s.st = .idle ∧ t = afterCycleStart sn s := by
  unfold execCycleStart afterCycleStart
  split <;> simp_all [eq_comm]

theorem execSend_next {v : Draw} {o : WriteOutcome} {s t : State} :
    execSend v o s = .next t ↔ s.st = .sending ∧ t = afterSend v o s := by
  unfold execSend afterSend
  split
  · cases o <;> simp_all [eq_comm, goto, txWriteAll, memWrite, memRead, buffer, writeFrom, setByte, Frame.toList,
      raiseWriteFailure]
  · simp_all

theorem execRecv_next {k : Nat} {s t : State} :
    execRecv k s = .next t ↔ (s.st = .awaitingReply ∧ s.rxcnt < 8) ∧ t = afterRecv k s := by
  unfold execRecv afterRecv
  split
  · simp_all [eq_comm, memWrite, rxReadRest]
  · simp_all

theorem execVerify_next {s t : State} :
    execVerify s = .next t ↔ (s.st = .awaitingReply ∧ s.rxcnt = 8) ∧
      t = { s with st := if s.rxbuf.b7 = s.pkt.b7 then .verified else .retrying } := by
  unfold execVerify full replyMatches
  by_cases h : s.st = .awaitingReply ∧ s.rxcnt = 8 <;> by_cases hm : s.rxbuf.b7 = s.pkt.b7 <;>
    simp [h, hm, goto, eq_comm (a := t)]

theorem execRetry_next {s t : State} :
    execRetry s = .next t ↔ s.st = .retrying ∧ t = afterRetry s := by
  unfold execRetry afterRetry
  split <;> simp_all [eq_comm, goto, emit]

theorem execDeliver_next {s t : State} :
    execDeliver s = .next t ↔ s.st = .verified ∧ t = afterDeliver s := by
  unfold execDeliver afterDeliver
  split <;> simp_all [eq_comm, goto, emit, leaveExchange]

/-- A packing function returns a value and changes nothing else, ENC.TOGGLE's writes apart (R70, R110). -/
theorem exec_function {i : Instr} (h : i.row.isTransition = false) (s : State) :
    ∃ (r : FnResult) (l p : Bool), exec i s = .next { s with latch := l, prev := p, ret := some r } ∧
      (i.row ∉ [Row.encode, .encToggle] → l = s.latch ∧ p = s.prev) := by
  cases i <;> simp [Instr.row, Row.isTransition] at h <;>
    exact ⟨_, _, _, rfl, by simp [Instr.row]⟩

/-- No operation is refused. -/
theorem exec_not_refused (i : Instr) (s : State) (r : Refusal) : exec i s ≠ .refused r := by
  cases i <;> simp only [exec, execCycleStart, execSend, execRecv, execVerify, execRetry, execDeliver, execEncode, execDrive,
    execEncLdrive, execEncRdrive, execPair, execEncAuger, execEncToggle, execEncRail, execEncZero, execDecode] <;>
    (repeat' split) <;> simp

end Sys2Proof.Machine
end

