-- ==== Sys2Proof/Laws/PerInstr.lean ====
section
/-! SUPPORT. The families of statements made per operation (LAWS.json). -/

/-- Family CodeShape: the code of an operation begins with its row's byte, and that byte selects the row. -/
def Sys2Proof.Laws.CodeShape.Statement (i : Sys2Proof.Instr) : Prop :=
  (∀ w : Nat, Sys2Proof.encodeInstr w i = BitVec.ofNat 8 i.row.code :: Sys2Proof.operandBytes w i) ∧
    Sys2Proof.decodeRow (BitVec.ofNat 8 i.row.code) = .ok i.row

namespace Sys2Proof.Laws.CodeShape

theorem cycleStart (sn : Snapshot) : Statement (.cycleStart sn) := ⟨fun _ => rfl, rfl⟩
theorem send (v : Draw) (o : WriteOutcome) : Statement (.send v o) := ⟨fun _ => rfl, rfl⟩
theorem recv (k : Nat) : Statement (.recv k) := ⟨fun _ => rfl, rfl⟩
theorem verify : Statement .verify := ⟨fun _ => rfl, rfl⟩
theorem deliver : Statement .deliver := ⟨fun _ => rfl, rfl⟩
theorem retry : Statement .retry := ⟨fun _ => rfl, rfl⟩
theorem encode (sn : Snapshot) : Statement (.encode sn) := ⟨fun _ => rfl, rfl⟩
theorem drive (n : Axis) : Statement (.drive n) := ⟨fun _ => rfl, rfl⟩
theorem encLdrive (sn : Snapshot) : Statement (.encLdrive sn) := ⟨fun _ => rfl, rfl⟩
theorem encRdrive (sn : Snapshot) : Statement (.encRdrive sn) := ⟨fun _ => rfl, rfl⟩
theorem pair (m0 m1 : Bool) : Statement (.pair m0 m1) := ⟨fun _ => rfl, rfl⟩
theorem encAuger (sn : Snapshot) : Statement (.encAuger sn) := ⟨fun _ => rfl, rfl⟩
theorem encToggle (sn : Snapshot) : Statement (.encToggle sn) := ⟨fun _ => rfl, rfl⟩
theorem encRail (sn : Snapshot) (l : Bool) : Statement (.encRail sn l) := ⟨fun _ => rfl, rfl⟩
theorem encZero : Statement .encZero := ⟨fun _ => rfl, rfl⟩
theorem decode (r : Frame) : Statement (.decode r) := ⟨fun _ => rfl, rfl⟩

end Sys2Proof.Laws.CodeShape
end

