-- ==== Sys2Proof/Laws/Step.lean ====
section
/-! SUPPORT. What a step can do, said once, and the operation each state selects. -/

namespace Sys2Proof.Machine

@[simp] theorem takeTurn_script (s : State) : (takeTurn s).script = afterTurn s.script := rfl
@[simp] theorem takeTurn_pkt (s : State) : (takeTurn s).pkt = s.pkt := rfl
@[simp] theorem takeTurn_rxbuf (s : State) : (takeTurn s).rxbuf = s.rxbuf := rfl
@[simp] theorem takeTurn_st (s : State) : (takeTurn s).st = s.st := rfl
@[simp] theorem takeTurn_rxcnt (s : State) : (takeTurn s).rxcnt = s.rxcnt := rfl
@[simp] theorem takeTurn_retry (s : State) : (takeTurn s).retry = s.retry := rfl
@[simp] theorem takeTurn_latch (s : State) : (takeTurn s).latch = s.latch := rfl
@[simp] theorem takeTurn_prev (s : State) : (takeTurn s).prev = s.prev := rfl
@[simp] theorem takeTurn_rxq (s : State) : (takeTurn s).rxq = s.rxq := rfl
@[simp] theorem takeTurn_tx (s : State) : (takeTurn s).tx = s.tx := rfl
@[simp] theorem takeTurn_events (s : State) : (takeTurn s).events = s.events := rfl
@[simp] theorem takeTurn_offer (s : State) : (takeTurn s).offer = s.offer := rfl
@[simp] theorem takeTurn_freeCount (s : State) : (takeTurn s).freeCount = s.freeCount := rfl
@[simp] theorem takeTurn_invoke (s : State) : (takeTurn s).invoke = s.invoke := rfl
@[simp] theorem takeTurn_ret (s : State) : (takeTurn s).ret = s.ret := rfl
@[simp] theorem takeTurn_params (s : State) : (takeTurn s).params = s.params := rfl
@[simp] theorem takeTurn_ending (s : State) : (takeTurn s).ending = s.ending := rfl

/-- The block's turn takes the entry `turn` off the script, and no other. -/
@[simp] theorem afterTurn_turn (rest : List EnvInput) : afterTurn (.turn :: rest) = rest := rfl

theorem afterTurn_other {es : List EnvInput} (h : es.head? ≠ some .turn) : afterTurn es = es := by
  unfold afterTurn
  split <;> simp_all

/-- Without an entry `turn` at the head of the script, taking the turn changes nothing. -/
theorem takeTurn_other {s : State} (h : s.script.head? ≠ some .turn) : takeTurn s = s := by
  rw [takeTurn, afterTurn_other h]

/-- What the environment does once its script has no more lines. -/
theorem moreLines_some {s t : State} (h : moreLines s = some t) :
    s.ending ≠ .silent ∧ ∃ es n, t = { s with script := es, freeCount := n } := by
  unfold moreLines at h
  cases he : s.ending <;> simp only [he] at h <;> cases h <;> exact ⟨by simp, _, _, rfl⟩

/-- The environment's moves. -/
theorem envMove_some {s t : State} (h : envMove s = some t) :
    (∃ o rest, s.script = .offer o :: rest ∧ t = { s with script := rest, offer := o }) ∨
    (∃ c rest, s.script = .arrive c :: rest ∧ t = { s with script := rest, rxq := s.rxq ++ c }) ∨
    (∃ rest, s.script = .reset :: rest ∧ t = applyReset { s with script := rest }) ∨
    (s.script = [] ∧ s.ending ≠ .silent ∧ ∃ es n, t = { s with script := es, freeCount := n }) := by
  unfold envMove at h
  split at h <;> simp_all
  exact moreLines_some h

/-- SEND's answers change the script and the counter of free values only. -/
theorem sendAnswer_state (s : State) :
    ∃ sc n, (sendAnswer s).2.2 = { s with script := sc, freeCount := n } := by
  unfold sendAnswer
  split <;> exact ⟨_, _, rfl⟩

/-- RECV's answer changes the script and the counter of free values only. -/
theorem readAnswer_state (s : State) :
    ∃ sc n, (readAnswer s).2 = { s with script := sc, freeCount := n } := by
  unfold readAnswer
  split <;> exact ⟨_, _, rfl⟩

/-- The dispatch word selects by `ST` and `FULL` (R63). -/
theorem decodeDispatch_dispatchWord (s : State) :
    decodeDispatch (dispatchWord s) =
      match s.st with
      | .idle => .ok .cycleStart
      | .sending => .ok .send
      | .awaitingReply => if s.rxcnt = 8 then .ok .verify else .ok .recv
      | .verified => .ok .deliver
      | .retrying => .ok .retry
      | .fatal => .error .fatalState := by
  unfold dispatchWord full
  have hb : (s.rxcnt == Config.frameLen) = decide (s.rxcnt = 8) := rfl
  rw [hb]
  by_cases hf : s.rxcnt = 8 <;> simp only [hf, decide_true, decide_false, if_true, if_false] <;> cases s.st <;> rfl

/-- The operation a state selects. -/
theorem fetch_eq (s : State) :
    fetch s =
      match s.st with
      | .idle => match s.offer with
        | some sn => .run (.cycleStart sn) { s with offer := none }
        | none => .wait
      | .sending => .run (.send (sendAnswer s).1 (sendAnswer s).2.1) (sendAnswer s).2.2
      | .awaitingReply => if s.rxcnt = 8 then .run .verify s else .run (.recv (readAnswer s).1) (readAnswer s).2
      | .verified => .run .deliver s
      | .retrying => .run .retry s
      | .fatal => .halted := by
  unfold fetch
  rw [decodeDispatch_dispatchWord]
  cases s.st <;> try rfl
  by_cases hf : s.rxcnt = 8 <;> simp only [hf, if_true, if_false]

/-- The three kinds of step. -/
theorem step_next {s t : State} (h : step s = .next t) :
    (∃ i, s.invoke = some i ∧ exec i { s with invoke := none } = .next t) ∨
    (s.invoke = none ∧ envMove s = some t) ∨
    (s.invoke = none ∧ envMove s = none ∧ blockStep s = .next t) := by
  unfold step at h
  split at h
  · exact .inl ⟨_, ‹_›, h⟩
  · split at h
    · exact .inr (.inl ⟨‹_›, by simp_all⟩)
    · exact .inr (.inr ⟨‹_›, ‹_›, h⟩)

/-- On the block's turn a step is the block's own. -/
theorem step_blockTurn {s : State} (h : blockTurn s = true) : step s = blockStep s := by
  obtain ⟨hi, he⟩ : s.invoke = none ∧ envMove s = none := by simpa [blockTurn] using h
  simp [step, hi, he]

/-- On the block's turn a step runs the operation the state selects. -/
theorem step_fetched {s s' : State} {i : Instr} (h : blockTurn s = true) (hf : fetch (takeTurn s) = .run i s') :
    step s = exec i s' := by
  simp [step_blockTurn h, blockStep, hf]

/-- Without a function at the invocation port a step is an environment move or the block's. -/
theorem step_next_uninvoked {s t : State} (hi : s.invoke = none) (h : step s = .next t) :
    (∃ o rest, s.script = .offer o :: rest ∧ t = { s with script := rest, offer := o }) ∨
    (∃ c rest, s.script = .arrive c :: rest ∧ t = { s with script := rest, rxq := s.rxq ++ c }) ∨
    (∃ rest, s.script = .reset :: rest ∧ t = applyReset { s with script := rest }) ∨
    (blockTurn s = false ∧ s.script = [] ∧ s.ending ≠ .silent ∧
      ∃ es n, t = { s with script := es, freeCount := n }) ∨
    (blockTurn s = true ∧ blockStep s = .next t) := by
  rcases step_next h with ⟨i, h', _⟩ | ⟨_, h'⟩ | ⟨_, h1, h'⟩
  · simp [hi] at h'
  · rcases envMove_some h' with h | h | h | ⟨h1, h2, es, n, rfl⟩
    · exact .inl h
    · exact .inr (.inl h)
    · exact .inr (.inr (.inl h))
    · exact .inr (.inr (.inr (.inl ⟨by simp [blockTurn, h'], h1, h2, es, n, rfl⟩)))
  · exact .inr (.inr (.inr (.inr ⟨by simp [blockTurn, hi, h1], h'⟩)))

/-- Nothing arrives on the block's turn. -/
theorem arriving_blockTurn {s : State} (h : blockTurn s = true) : arriving s = [] := by
  have he : envMove s = none := by simp [blockTurn] at h; exact h.2
  unfold envMove at he
  unfold arriving
  split at he <;> simp_all

theorem arrivals_succ (σ : Nat → State) (n : Nat) : arrivals σ (n + 1) = arrivals σ n ++ arriving (σ n) := by
  simp [arrivals, List.range_succ]

theorem sendCount_succ (σ : Nat → State) (n : Nat) :
    sendCount σ (n + 1) = sendCount σ n + if blockTurn (σ n) && (σ n).st == .sending then 1 else 0 := by
  simp [sendCount, List.range_succ]

/-- The warning of one more mismatch (R95). -/
theorem retryWarnings_succ (n : Nat) : retryWarnings (n + 1) = retryWarnings n ++ [.warn (severity (n + 1))] := by
  cases n with
  | zero => rfl
  | succ n => simp [retryWarnings, severity, List.replicate_succ']

/-- A run begins with its first step. -/
theorem run_step {s t : State} (n : Nat) (h : step s = .next t) : run (n + 1) s = run n t := by
  simp [run, h]

/-- A run of `m + n` steps is a run of `m` and then one of `n`. -/
theorem run_add {m : Nat} (n : Nat) {s t : State} (h : run m s = .next t) : run (m + n) s = run n t := by
  induction m generalizing s with
  | zero => cases h; simp
  | succ m ih =>
    cases hs : step s with
    | next u =>
      rw [run_step m hs] at h
      rw [show m + 1 + n = m + n + 1 by omega, run_step _ hs]
      exact ih h
    | fault f => simp [run, hs] at h
    | refused r => simp [run, hs] at h

/-- What the selected operation does: one line per transition, and the wait of R97. -/
theorem fetch_run_next {s t : State}
    (h : (match fetch s with
      | .run i s' => exec i s'
      | .wait => .next s
      | .halted => .fault .eWrite) = Host.Outcome.next t) :
    (s.st = .idle ∧ s.offer = none ∧ t = s) ∨
    (s.st = .idle ∧ ∃ sn, s.offer = some sn ∧ t = afterCycleStart sn { s with offer := none }) ∨
    (s.st = .sending ∧ ∃ v o sc n, t = afterSend v o { s with script := sc, freeCount := n }) ∨
    (s.st = .awaitingReply ∧ s.rxcnt < 8 ∧ ∃ k sc n, t = afterRecv k { s with script := sc, freeCount := n }) ∨
    (s.st = .awaitingReply ∧ s.rxcnt = 8 ∧
      t = { s with st := if s.rxbuf.b7 = s.pkt.b7 then .verified else .retrying }) ∨
    (s.st = .verified ∧ t = afterDeliver s) ∨
    (s.st = .retrying ∧ t = afterRetry s) := by
  rw [fetch_eq] at h
  rcases hs : s.st <;> simp only [hs] at h
  · cases ho : s.offer <;> simp only [ho] at h
    · simp_all
    · obtain ⟨-, rfl⟩ := execCycleStart_next.1 h
      simp
  · obtain ⟨sc, n, e⟩ := sendAnswer_state s
    obtain ⟨-, rfl⟩ := execSend_next.1 h
    simp only [e]
    exact .inr (.inr (.inl ⟨trivial, _, _, sc, n, rfl⟩))
  · by_cases hf : s.rxcnt = 8
    · simp only [hf, if_true] at h
      obtain ⟨-, rfl⟩ := execVerify_next.1 h
      simp [hf]
    · simp only [hf, if_false] at h
      obtain ⟨sc, n, e⟩ := readAnswer_state s
      obtain ⟨⟨-, hlt⟩, rfl⟩ := execRecv_next.1 h
      rw [e] at hlt ⊢
      exact .inr (.inr (.inr (.inl ⟨rfl, hlt, (readAnswer s).1, sc, n, by rw [hs]⟩)))
  · obtain ⟨-, rfl⟩ := execDeliver_next.1 h
    simp
  · obtain ⟨-, rfl⟩ := execRetry_next.1 h
    simp
  · cases h

/-- What the block does on its turn: one line per transition, and the wait of R97. -/
theorem blockStep_next {s t : State} (h : blockStep s = .next t) :
    (s.st = .idle ∧ s.offer = none ∧ t = takeTurn s) ∨
    (s.st = .idle ∧ ∃ sn, s.offer = some sn ∧ t = afterCycleStart sn { takeTurn s with offer := none }) ∨
    (s.st = .sending ∧ ∃ v o sc n, t = afterSend v o { s with script := sc, freeCount := n }) ∨
    (s.st = .awaitingReply ∧ s.rxcnt < 8 ∧ ∃ k sc n, t = afterRecv k { s with script := sc, freeCount := n }) ∨
    (s.st = .awaitingReply ∧ s.rxcnt = 8 ∧
      t = { takeTurn s with st := if s.rxbuf.b7 = s.pkt.b7 then .verified else .retrying }) ∨
    (s.st = .verified ∧ t = afterDeliver (takeTurn s)) ∨
    (s.st = .retrying ∧ t = afterRetry (takeTurn s)) :=
  fetch_run_next (s := takeTurn s) h

end Sys2Proof.Machine
end

