-- ==== Sys2Proof/Tests/Slice0.lean ====
section
/-! SUPPORT. The model's own tests. Expected values come from 95_test_vectors.md (V1 to V69), from the worked examples of
the rules, or from R63's table; a `witness_` theorem shows a state and operands that meet the hypotheses of the statement it
is named after. -/

namespace Sys2Proof.Tests

open Sys2Proof Sys2Proof.Machine

/-- The next state, if there is one. -/
def nextOf : Host.Outcome State Fault Refusal → Option State
  | .next t => some t
  | .fault _ => none
  | .refused _ => none

/-- The fault, if there is one. -/
def faultOf : Host.Outcome State Fault Refusal → Option Fault
  | .next _ => none
  | .fault f => some f
  | .refused _ => none

/-- What a function presented on its own returns in a state. -/
def returns (i : Instr) (s : State) : Option FnResult := (nextOf (exec i s)).bind State.ret

/-- The reset state with other registers of the encoder. -/
def latched (l p : Bool) : State := { State.reset with latch := l, prev := p }

/-- A state in `Sending` with a command (V57, V58). -/
def sending (f : Frame) : State := { State.reset with st := .sending, rxcnt := 8, pkt := f }

/-- A state in `AwaitingReply` with a count, a buffer and a queue (V59); the draw was 5A. -/
def awaiting (n : Nat) (buf : Frame) (q : List Byte) : State :=
  { State.reset with st := .awaitingReply, rxcnt := n, rxbuf := buf, rxq := q, pkt := ⟨0x14, 0, 0, 0, 0, 0, 0, 0x5A⟩ }

/-- A state holding a full reply, in a state of the exchange, with a retry count (V61 to V65). -/
def replied (st : ExState) (buf : Frame) (n : Nat) : State :=
  { State.reset with st := st, rxcnt := 8, rxbuf := buf, retry := n, pkt := ⟨0x14, 0, 0, 0, 0, 0, 0, 0x5A⟩ }

/-- The zero frame. -/
def zeroFrame : Frame := ⟨0, 0, 0, 0, 0, 0, 0, 0⟩

/-- The neutral snapshot (V50). -/
def neutral : Snapshot :=
  ⟨0, 0, false, false, false, false, false, false, false, false, false, false, false⟩

/-- The snapshot of V53. -/
def snapV53 : Snapshot :=
  { neutral with
    axisL := 8192, axisR := 4096, augRFwd := true, augLRev := true, dumpLower := true, dumpTilt := true, railUp := true,
    toggleBtn := true }

/-- The snapshot of V51 and V56. -/
def snapV51 : Snapshot := { neutral with axisL := 16384, axisR := (-16384) }

/- WellFormed: an ill-formed term for each check. -/

theorem test_wf_recv_nine_refused :
    (Instr.recv 9).wellFormed 16 = false ∧ (Instr.recv 8).wellFormed 16 = true := by decide

/-- One axis too wide, in each operand form that holds axes; the ends of the range for 16 and for 2 bits. -/
theorem test_wf_axis_bounds :
    (Instr.drive 32768).wellFormed 16 = false ∧ (Instr.drive (-32769)).wellFormed 16 = false ∧
      (Instr.drive 32767).wellFormed 16 = true ∧ (Instr.drive (-32768)).wellFormed 16 = true ∧
      (Instr.cycleStart { neutral with axisL := 32768 }).wellFormed 16 = false ∧
      (Instr.encode { neutral with axisR := -32769 }).wellFormed 16 = false ∧
      (Instr.drive 2).wellFormed 2 = false ∧ (Instr.drive (-2)).wellFormed 2 = true := by decide

theorem test_wf_params_bounds :
    (Params.mk 16 0).wellFormed = false ∧ (Params.mk 16 32768).wellFormed = false ∧ (Params.mk 1 1).wellFormed = false ∧
      (Params.mk 16 1).wellFormed = true ∧ (Params.mk 16 32767).wellFormed = true ∧ (Params.mk 2 1).wellFormed = true := by
  decide

theorem test_wf_transition_not_invoked :
    invocationWellFormed 16 .verify = false ∧ invocationWellFormed 16 (.drive 32768) = false ∧
      invocationWellFormed 16 .encZero = true := by decide

/- Decoding: words written bit by bit from R63's table; the functions' codes and the operands as in log 14. -/

theorem test_decode_dispatch_idle_sending :
    decodeDispatch 0b0000#4 = .ok .cycleStart ∧ decodeDispatch 0b0001#4 = .ok .cycleStart ∧
      decodeDispatch 0b0010#4 = .ok .send ∧ decodeDispatch 0b0011#4 = .ok .send := ⟨rfl, rfl, rfl, rfl⟩

theorem test_decode_dispatch_awaiting :
    decodeDispatch 0b0100#4 = .ok .recv ∧ decodeDispatch 0b0101#4 = .ok .verify := ⟨rfl, rfl⟩

theorem test_decode_dispatch_verified_retrying :
    decodeDispatch 0b0110#4 = .ok .deliver ∧ decodeDispatch 0b0111#4 = .ok .deliver ∧
      decodeDispatch 0b1000#4 = .ok .retry ∧ decodeDispatch 0b1001#4 = .ok .retry := ⟨rfl, rfl, rfl, rfl⟩

theorem test_decode_dispatch_rejects :
    decodeDispatch 0b1010#4 = .error .fatalState ∧ decodeDispatch 0b1011#4 = .error .fatalState ∧
      decodeDispatch 0b1100#4 = .error .unreachableState ∧ decodeDispatch 0b1111#4 = .error .unreachableState :=
  ⟨rfl, rfl, rfl, rfl⟩

theorem test_decode_cycleStart :
    decodeInstr 16 [0x00, 0x00, 0x20, 0x00, 0x10, 0b00111001, 0b00000101] = .ok (.cycleStart snapV53, []) := rfl

theorem test_decode_send : decodeInstr 16 [0x02, 0x7F, 0x04] = .ok (.send 0x7F (.fail 3), []) := rfl

theorem test_decode_send_draw_255 : decodeInstr 16 [0x02, 0xFF, 0x00] = .error .drawOutOfRange := rfl

theorem test_decode_send_outcome : decodeInstr 16 [0x02, 0x00, 0x09] = .error .outcomeOutOfRange := rfl

theorem test_decode_recv :
    decodeInstr 16 [0x04, 0x05] = .ok (.recv 5, []) ∧ decodeInstr 16 [0x04, 0x09] = .error .readTooLong := ⟨rfl, rfl⟩

theorem test_decode_verify_deliver_retry :
    decodeInstr 16 [0x05, 0xAA] = .ok (.verify, [0xAA]) ∧ decodeInstr 16 [0x06] = .ok (.deliver, []) ∧
      decodeInstr 16 [0x08] = .ok (.retry, []) := ⟨rfl, rfl, rfl⟩

theorem test_decode_drive_negative : decodeInstr 16 [0x11, 0x00, 0xF0] = .ok (.drive (-4096), []) := rfl

/-- An axis of 12 bits takes two bytes, of 8 bits one; a bit above the width is refused (log 14). -/
theorem test_decode_axis_widths :
    decodeInstr 12 [0x11, 0x00, 0x0F] = .ok (.drive (-256), []) ∧ decodeInstr 12 [0x11, 0x00, 0x10] = .error .reservedBits ∧
      decodeInstr 8 [0x11, 0xFF] = .ok (.drive (-1), []) := ⟨rfl, rfl, rfl⟩

theorem test_decode_snapshot_functions :
    decodeInstr 16 [0x10, 0, 0, 0, 0, 0, 4] = .ok (.encode { neutral with toggleBtn := true }, []) ∧
      decodeInstr 16 [0x12, 0, 0, 0, 0, 1, 0] = .ok (.encLdrive { neutral with augRFwd := true }, []) ∧
      decodeInstr 16 [0x13, 0, 0, 0, 0, 2, 0] = .ok (.encRdrive { neutral with augRRev := true }, []) ∧
      decodeInstr 16 [0x15, 0, 0, 0, 0, 4, 0] = .ok (.encAuger { neutral with augLFwd := true }, []) ∧
      decodeInstr 16 [0x16, 0, 0, 0, 0, 128, 0] = .ok (.encToggle { neutral with railLeft := true }, []) :=
  ⟨rfl, rfl, rfl, rfl, rfl⟩

theorem test_decode_rail_pair_zero :
    decodeInstr 16 [0x17, 0, 0, 0, 0, 64, 2, 1] = .ok (.encRail { neutral with railRight := true, railDown := true } true, [])
      ∧ decodeInstr 16 [0x14, 0b10] = .ok (.pair false true, []) ∧ decodeInstr 16 [0x18] = .ok (.encZero, []) :=
  ⟨rfl, rfl, rfl⟩

theorem test_decode_reserved_bits :
    decodeInstr 16 [0x14, 4] = .error .reservedBits ∧ decodeInstr 16 [0x10, 0, 0, 0, 0, 0, 8] = .error .reservedBits :=
  ⟨rfl, rfl⟩

theorem test_decode_unknown_truncated :
    decodeInstr 16 [0x1A] = .error .unknownCode ∧ decodeInstr 16 [0x00, 0x00] = .error .truncated ∧
      decodeInstr 16 [] = .error .truncated := ⟨rfl, rfl, rfl⟩

/-- R110's worked example as 64 bits, offset 0 in the lowest byte (log 24). -/
theorem test_table_word_decode :
    decodeTableWord 64 0x0807060504030201 = some (.decode ⟨1, 2, 3, 4, 5, 6, 7, 8⟩) := rfl

theorem test_table_word_zero : decodeTableWord 24 0 = some .encZero ∧ decodeTableWord 24 1 = none := ⟨rfl, rfl⟩

theorem test_table_word_dispatch :
    decodeTableWord 8 0x5 = some .verify ∧ decodeTableWord 8 0x9 = some .retry ∧ decodeTableWord 8 0xA = none :=
  ⟨rfl, rfl, rfl⟩

/-- The patterns of R51: a drive byte of 0x20, an auger byte of 0x10, a rail byte of 0x20 and a dump byte of 1 are none. -/
theorem test_produced_patterns :
    matchesPattern .drive 0x14 = true ∧ matchesPattern .encLdrive 0x20 = false ∧ matchesPattern .encRdrive 0x1F = true ∧
      matchesPattern .encAuger 0x0A = true ∧ matchesPattern .encAuger 0x10 = false ∧ matchesPattern .encRail 0x1B = true ∧
      matchesPattern .encRail 0x20 = false ∧ matchesPattern .encZero 1 = false := by decide

/- The encoder (2.1 to 2.5). -/

/-- V5, V6, V8, V8b. -/
theorem test_drive_ties_and_neutral :
    returns (.drive 4096) State.reset = some (.byte 0x0D) ∧
      returns (.drive (-4096)) State.reset = some (.byte 0x07) ∧
      returns (.drive 819) State.reset = some (.byte 0x0A) ∧ returns (.drive 820) State.reset = some (.byte 0x0B) := by
  decide

/-- V16, V16b, V18c, V19c: the last threshold and both clamps. -/
theorem test_drive_clamps :
    returns (.drive 15564) State.reset = some (.byte 0x13) ∧ returns (.drive 15565) State.reset = some (.byte 0x14) ∧
      returns (.drive 32767) State.reset = some (.byte 0x14) ∧
      returns (.drive (-32768)) State.reset = some (.byte 0x00) := by decide

/-- R71's formula at another instantiation of R6: AXIS_W = 4 and AXIS_ONE = 4, where 1 stands for 0.25 (a tie, as V5) and the
most negative axis is -8. -/
theorem test_drive_other_params :
    let s := { State.reset with params := ⟨4, 4⟩ }
    returns (.drive 1) s = some (.byte 0x0D) ∧ returns (.drive (-1)) s = some (.byte 0x07) ∧
      returns (.drive 4) s = some (.byte 0x14) ∧ returns (.drive (-8)) s = some (.byte 0x00) := by decide

/-- V2, V3 at each field: S1's scenario. -/
theorem test_encLdrive_encRdrive :
    returns (.encLdrive snapV51) State.reset = some (.byte 20) ∧
      returns (.encRdrive snapV51) State.reset = some (.byte 0) := by decide

/-- V20. -/
theorem test_pair_table :
    pairOut false false = (false, false) ∧ pairOut true false = (true, false) ∧ pairOut false true = (false, true) ∧
      pairOut true true = (false, false) := by decide

/-- V20, one row through `exec`. -/
theorem test_pair_exec : returns (.pair true false) State.reset = some (.pair true false) := by decide

/-- V27b, V26. -/
theorem test_encAuger :
    returns (.encAuger { neutral with augRFwd := true, augLRev := true }) State.reset = some (.byte 0x09) ∧
      returns (.encAuger { neutral with augRFwd := true, augRRev := true, augLFwd := true }) State.reset
        = some (.byte 0x04) := by decide

/-- V41, V42, V43, V43c: latch and previous level after. -/
theorem test_encToggle :
    let f := fun (b l p : Bool) => (nextOf (exec (.encToggle { neutral with toggleBtn := b }) (latched l p))).map
      fun t => (t.latch, t.prev)
    f true false false = some (true, true) ∧ f true true false = some (false, true) ∧
      f true true true = some (true, true) ∧ f false true true = some (true, false) := by decide

/-- V37, V38, V44, V45. -/
theorem test_encRail :
    returns (.encRail { neutral with dumpLower := true, railLeft := true } false) State.reset = some (.byte 0x03) ∧
      returns (.encRail { neutral with dumpLower := true, dumpTilt := true, railRight := true } false) State.reset
        = some (.byte 0x01) ∧
      returns (.encRail { neutral with dumpLower := true, railUp := true } true) State.reset = some (.byte 0x15) ∧
      returns (.encRail { neutral with dumpLower := true, railLeft := true, railDown := true } true) State.reset
        = some (.byte 0x1B) := by decide

theorem test_encZero : returns .encZero State.reset = some (.zeros 0 0 0) := rfl

/-- V52: both clamps, right and left auger, tilt and down, a rising edge. -/
theorem test_encode_V52 :
    returns (.encode { neutral with
      axisL := 32767, axisR := (-32768), augRFwd := true, augLFwd := true, dumpTilt := true,
      railDown := true, toggleBtn := true }) State.reset
      = some (.command ⟨0x14, 0x00, 0x05, 0x1A, 0x00, 0x00, 0x00⟩) := by decide

/-- V53, V54, V55: one snapshot against three latch states. -/
theorem test_encode_V53_V55 :
    returns (.encode snapV53) (latched false false) = some (.command ⟨0x0F, 0x0D, 0x09, 0x14, 0, 0, 0⟩) ∧
      returns (.encode snapV53) (latched true true) = some (.command ⟨0x0F, 0x0D, 0x09, 0x14, 0, 0, 0⟩) ∧
      returns (.encode snapV53) (latched true false) = some (.command ⟨0x0F, 0x0D, 0x09, 0x04, 0, 0, 0⟩) := by decide

/- The exchange (2.6). -/

/-- V56. -/
theorem test_cycleStart_V56 :
    (nextOf (exec (.cycleStart snapV51)
      { State.reset with retry := 7, pkt := ⟨1, 2, 3, 4, 5, 6, 7, 0x99⟩ })).map
        (fun t => (t.st, t.retry, t.pkt))
      = some (.sending, 0, ⟨0x14, 0, 0, 0, 0, 0, 0, 0x99⟩) := by decide

/-- V57c: the largest draw. -/
theorem test_send_V57c :
    (nextOf (exec (.send 254 .ok) (sending ⟨0x14, 0, 0, 0, 0, 0, 0, 0⟩))).map
      (fun t => (t.st, t.pkt.b7, t.rxcnt, t.tx))
      = some (.awaitingReply, 0xFE, 0, [0x14, 0, 0, 0, 0, 0, 0, 0xFE]) := by decide

/-- V58, V58b. -/
theorem test_send_V58 :
    (nextOf (exec (.send 0x7F (.fail 3)) (sending ⟨10, 10, 0, 0, 0, 0, 0, 0⟩))).map (fun t => (t.st, t.pkt.b7, t.tx))
        = some (.fatal, 0x7F, [10, 10, 0]) ∧
      (nextOf (exec (.send 0x7F (.fail 0)) (sending ⟨10, 10, 0, 0, 0, 0, 0, 0⟩))).map (fun t => (t.st, t.tx))
        = some (.fatal, []) := by decide

/-- V59. -/
theorem test_recv_V59 :
    (nextOf (exec (.recv 5) (awaiting 3 ⟨0x14, 0, 0, 7, 7, 7, 7, 7⟩ [0, 0, 0, 0, 0x5A]))).map
      (fun t => (t.rxcnt, t.rxbuf, t.rxq)) = some (8, ⟨0x14, 0, 0, 0, 0, 0, 0, 0x5A⟩, []) := by decide

/-- V59d: one byte fits, two are left. -/
theorem test_recv_V59d :
    (nextOf (exec (.recv 8) (awaiting 7 zeroFrame [0xAA, 0xBB, 0xCC]))).map
      (fun t => (t.rxcnt, t.rxbuf.b7, t.rxq)) = some (8, 0xAA, [0xBB, 0xCC]) := by decide

/-- V61, V61b, V61c. -/
theorem test_verify_V61 :
    (nextOf (exec .verify (replied .awaitingReply ⟨0, 0, 0, 0, 0, 0, 0, 0x5A⟩ 0))).map State.st = some .verified ∧
      (nextOf (exec .verify (replied .awaitingReply ⟨0x14, 0, 0, 0, 0, 0, 0, 0x5B⟩ 0))).map State.st = some .retrying ∧
      (nextOf (exec .verify (replied .awaitingReply ⟨0x14, 0, 0, 0, 0, 0, 0, 0xFF⟩ 0))).map State.st = some .retrying := by
  decide

/-- V62, V65. -/
theorem test_deliver_V62 :
    (nextOf (exec .deliver (replied .verified ⟨0xFF, 0xEE, 0xDD, 0xCC, 0xBB, 0xAA, 0x99, 0x5A⟩ 2))).map
      (fun t => (t.st, t.retry, t.events))
      = some (.idle, 2, [.sink ⟨255, 238, 204, 221, 187, 170, 153, 90⟩]) := by decide

/-- V64, V64b, V64d. -/
theorem test_retry_V64 :
    let f := fun n => (nextOf (exec .retry (replied .retrying zeroFrame n))).map fun t => (t.retry, t.st, t.events)
    f 0 = some (1, .sending, [.warn .low]) ∧ f 1 = some (2, .sending, [.warn .high]) ∧
      f 1000000 = some (1000001, .sending, [.warn .high]) := by decide

/-- A transition outside its enabling condition (log 12). -/
theorem test_not_enabled :
    faultOf (exec .verify (awaiting 7 zeroFrame [])) = some .notEnabled ∧
      faultOf (exec (.recv 1) (awaiting 8 zeroFrame [1])) = some .notEnabled := by decide

/-- V66, V69. -/
theorem test_decode_V66_V69 :
    returns (.decode ⟨1, 2, 3, 4, 5, 6, 7, 8⟩) State.reset = some (.status ⟨1, 2, 4, 3, 5, 6, 7, 8⟩) ∧
      returns (.decode ⟨0x15, 0x80, 0xF0, 0xE0, 1, 2, 3, 0x7F⟩) State.reset
        = some (.status ⟨21, 128, 224, 240, 1, 2, 3, 127⟩) := by decide

/- The step. -/

/-- P4's third line: a scripted draw and a scripted failure. -/
theorem test_step_send_scripted :
    (nextOf (step { sending ⟨10, 10, 0, 0, 0, 0, 0, 0⟩ with script := [.draw 0x7F, .wr (.fail 3), .draw 1] })).map
      (fun t => (t.st, t.tx, t.script)) = some (.fatal, [10, 10, 0], [.draw 1]) := by decide

/-- R68: a scripted draw without an outcome means `WR ok`. -/
theorem test_step_send_default_ok :
    (nextOf (step { sending zeroFrame with script := [.draw 0x11, .read 8] })).map
      (fun t => (t.st, t.script)) = some (.awaitingReply, [.read 8]) := by decide

/-- R46: with a turn before it, an arrival lands right after VERIFY, and a reset right after CYCLE_START. -/
theorem test_step_turn :
    (nextOf (step { replied .awaitingReply zeroFrame 0 with script := [.turn, .arrive [1]] })).map
        (fun t => (t.st, t.script, t.rxq)) = some (.retrying, [.arrive [1]], []) ∧
      (nextOf (step { State.reset with offer := some neutral, script := [.turn, .reset] })).map
        (fun t => (t.st, t.script)) = some (.sending, [.reset]) := by decide

/-- R98: in `Fatal` the step stops. -/
theorem test_step_fatal : faultOf (step (replied .fatal zeroFrame 0)) = some .eWrite := by decide

/-- R97: a step in `Idle` without a snapshot. -/
theorem test_step_idle_waits : nextOf (step State.reset) = some State.reset := by decide

/-- R140: the reset input leaves RXQ. -/
theorem test_step_reset_keeps_queue :
    (nextOf (step { awaiting 3 zeroFrame [0xEE] with script := [.reset] })).map
      (fun t => (t.st, t.rxcnt, t.latch, t.rxq)) = some (.idle, 0, false, [0xEE]) := rfl

/-- A placed transition is the next thing that runs, whatever the environment would do first. -/
theorem test_withFetchWord_retry :
    let next := fun s : State => (nextOf (step (s.withFetchWord 8 0x8))).map (fun t => (t.st, t.retry))
    next State.reset = some (.sending, 1) ∧ next { State.reset with script := [.reset] } = some (.sending, 1) ∧
      next { State.reset with ending := .again [.reset] } = some (.sending, 1) := by decide

/-- A placed reply is decoded by the next step. -/
theorem test_withFetchWord_decode :
    (nextOf (step (State.reset.withFetchWord 64 0x0807060504030201))).bind State.ret
      = some (.status ⟨1, 2, 4, 3, 5, 6, 7, 8⟩) := by decide

/- Witnesses: for each statement with hypotheses, a state and operands that meet them. -/

/-- The ends of an axis and of R6's range of AXIS_ONE, and every clause at a boundary: thresholds 1 and 10 on both sides, both ends. -/
theorem witness_DriveReturnsClampedRoundedValue :
    1 ≤ State.reset.params.axisOne ∧ axisFits State.reset.params.axisW (-32768) = true ∧
      axisFits State.reset.params.axisW 32767 = true ∧ axisFits 2 1 = true ∧
      driveByte ⟨16, 16384⟩ 820 = 11 ∧ driveByte ⟨16, 16384⟩ 819 = 10 ∧ driveByte ⟨16, 16384⟩ 15565 = 20 ∧
      driveByte ⟨16, 16384⟩ 15564 = 19 ∧ driveByte ⟨16, 16384⟩ (-820) = 9 ∧ driveByte ⟨16, 16384⟩ (-15565) = 0 ∧
      driveByte ⟨2, 1⟩ 1 = 20 ∧ driveByte ⟨16, 32767⟩ 32767 = 20 := by decide

theorem witness_DriveFieldsAreDriveOfTheirOwnAxis :
    let s' := awaiting 3 zeroFrame [1]
    State.reset ≠ s' ∧ State.reset.params = s'.params := by decide

theorem witness_DriveIsMonotoneAndOddSymmetric :
    1 ≤ 16384 ∧ driveValue 16384 4095 ≤ driveValue 16384 4096 ∧ driveValue 16384 (-4096) = 20 - driveValue 16384 4096 := by
  decide

theorem witness_HeldButtonFlipsLatchOnce :
    let sns := [{ neutral with toggleBtn := true }, snapV53]
    sns ≠ [] ∧ ∀ sn ∈ sns, sn.toggleBtn = true := by decide

theorem witness_EncodeDependsOnSnapshotAndLatchOnly :
    let s := latched true false
    let s' := { awaiting 3 zeroFrame [1] with latch := true }
    s ≠ s' ∧ s.latch = s'.latch ∧ s.prev = s'.prev ∧ s.params = s'.params := by decide

theorem witness_SecondEncodingRepeatsTheCommand : snapV53.toggleBtn = true := rfl

/-- Both clauses, the first with the snapshot of V37 that sets both shared bits, the second at the largest draw. -/
theorem witness_IllegalCommandsAreNeverGenerated :
    (∃ t, exec (.cycleStart { neutral with dumpLower := true, railLeft := true }) State.reset = .next t ∧
      t.pkt.b3 = 0x03) ∧
    (∃ t, exec (.send 254 .ok) (sending zeroFrame) = .next t ∧ t.pkt.b7 = 254) :=
  ⟨⟨_, rfl, by decide⟩, ⟨_, rfl, by decide⟩⟩

theorem witness_FirstPacketCarriesHeldButton :
    State.reset.st = .idle ∧ State.reset.latch = false ∧ State.reset.prev = false ∧ State.reset.invoke = none ∧
      step { State.reset with offer := some snapV53 } = exec (.cycleStart snapV53) State.reset := ⟨rfl, rfl, rfl, rfl, rfl⟩

theorem witness_CycleStartStoresEncodedCommand : State.reset.st = .idle := rfl

theorem witness_SendTransmitsOrIsFatal : (sending zeroFrame).st = .sending := rfl

/-- An empty buffer, and the last free offset. -/
theorem witness_RecvStoresReturnedBytes :
    (awaiting 0 zeroFrame [1, 2]).st = .awaitingReply ∧ (awaiting 0 zeroFrame [1, 2]).rxcnt < 8 ∧
      (awaiting 7 zeroFrame [1]).rxcnt < 8 := by decide

/-- Both alternatives: a read of no byte from a full queue, and a read from an empty one (V59b). -/
theorem witness_EmptyReadIsStutter :
    nextOf (exec (.recv 0) (awaiting 3 zeroFrame [1])) = some (awaiting 3 zeroFrame [1]) ∧
      nextOf (exec (.recv 5) (awaiting 3 zeroFrame [])) = some (awaiting 3 zeroFrame []) := by decide

/-- Both clauses. -/
theorem witness_VerifyComparesVerificationBytes :
    (replied .awaitingReply ⟨0, 0, 0, 0, 0, 0, 0, 0x5A⟩ 0).rxbuf.b7 = (replied .awaitingReply zeroFrame 0).pkt.b7 ∧
      (replied .awaitingReply zeroFrame 0).rxbuf.b7 ≠ (replied .awaitingReply zeroFrame 0).pkt.b7 ∧
      (replied .awaitingReply zeroFrame 0).st = .awaitingReply ∧ (replied .awaitingReply zeroFrame 0).rxcnt = 8 := by
  decide

theorem witness_RetryIncrementsThenClassifies :
    (replied .retrying zeroFrame 0).st = .retrying ∧ (replied .retrying zeroFrame 1).retry ≠ 0 := by decide

theorem witness_DeliverForwardsDecodedReply : (replied .verified zeroFrame 0).st = .verified := rfl

theorem witness_MatchingReplyIsDeliveredAsIs :
    let r : Frame := ⟨0xFF, 0xEE, 0xDD, 0xCC, 0xBB, 0xAA, 0x99, 0x5A⟩
    let s := replied .awaitingReply r 0
    s.st = .awaitingReply ∧ s.rxcnt = 8 ∧ s.rxbuf = r ∧ r.b7 = s.pkt.b7 := by decide

/-- A state of the invariant that holds a reply ending in 255 (V61c). -/
theorem witness_ReplyOf255NeverMatches :
    let s := { replied .awaitingReply ⟨0, 0, 0, 0, 0, 0, 0, 0xFF⟩ 0 with latch := false }
    Inv s ∧ s.st = .awaitingReply ∧ s.rxcnt = 8 ∧ s.rxbuf.b7 = 255 :=
  ⟨⟨by decide, by decide, by decide, by decide, by decide, by decide, by decide, by decide⟩, by decide, by decide,
    by decide⟩

/-- One and seven stray bytes (P5 has one). -/
theorem witness_StrayBytesShiftTheFrame :
    (awaiting 0 zeroFrame ([0xEE] ++ [10, 10, 0, 0, 0, 0, 0, 0x40] ++ [])).rxcnt = 0 ∧ 0 < [0xEE].length ∧
      [(1 : Byte), 2, 3, 4, 5, 6, 7].length < 8 ∧
      (nextOf (exec (.recv 8) (awaiting 0 zeroFrame ([0xEE] ++ [10, 10, 0, 0, 0, 0, 0, 0x40] ++ [])))).map
        (fun t => (t.rxbuf, t.rxq)) = some (⟨0xEE, 10, 10, 0, 0, 0, 0, 0⟩, [0x40]) := by decide

/-- A state outside each enabling condition. -/
theorem witness_TransitionsFaultWhenNotEnabled :
    (sending zeroFrame).st ≠ .idle ∧ State.reset.st ≠ .sending ∧ ¬ (awaiting 8 zeroFrame []).rxcnt < 8 ∧
      (awaiting 7 zeroFrame []).rxcnt ≠ 8 ∧ State.reset.st ≠ .retrying ∧ State.reset.st ≠ .verified := by decide

/-- One raising of each condition, from a state that records none. -/
theorem witness_ConditionsArePreciselyRaised :
    condition (sending zeroFrame) = none ∧
      (nextOf (exec (.send 1 (.fail 0)) (sending zeroFrame))).bind condition = some .eWrite ∧
      condition (replied .awaitingReply zeroFrame 0) = none ∧
      (nextOf (exec .verify (replied .awaitingReply zeroFrame 0))).bind condition = some .eMismatch ∧
      (nextOf (exec .encZero State.reset)).bind condition = none := by decide

/-- A next state for a writer of each buffer and for an operation that writes none. -/
theorem witness_OnlyNamedOperationsWriteBuffers :
    (∃ t, exec (.recv 2) (awaiting 3 zeroFrame [1, 2]) = .next t ∧ readByte .rxbuf 4 t = some 2 ∧
      readByte .rxbuf 5 t = some 0 ∧ readByte .rxbuf 8 t = none) ∧
    (∃ t, exec (.send 9 .ok) (sending zeroFrame) = .next t ∧ readByte .pkt 7 t = some 9) ∧
    ∃ t, exec .retry (replied .retrying zeroFrame 0) = .next t :=
  ⟨⟨_, rfl, by decide⟩, ⟨_, rfl, by decide⟩, ⟨_, rfl⟩⟩

theorem witness_OnlyNamedOperationsWriteRegisters :
    (∃ t, exec .verify (replied .awaitingReply zeroFrame 0) = .next t) ∧
      ∃ t, exec (.encToggle snapV53) State.reset = .next t ∧ t.latch ≠ State.reset.latch :=
  ⟨⟨_, rfl⟩, ⟨_, rfl, by decide⟩⟩

/-- The lowest and the highest code without a state. -/
theorem witness_DispatchWordSelectsOperation :
    12 ≤ (12#4).toNat ∧ 12 ≤ (15#4).toNat ∧ decodeDispatch 9#4 = .ok .retry := ⟨by decide, by decide, rfl⟩

/-- The block's turn in each state, with each form of the script, and a function at the port. -/
theorem witness_StepRunsSelectedOperation :
    blockTurn { State.reset with offer := some snapV53 } = true ∧
      blockTurn { sending zeroFrame with script := [.draw 1, .wr .ok] } = true ∧
      blockTurn { sending zeroFrame with script := [.turn, .draw 1] } = true ∧
      blockTurn { sending zeroFrame with script := [.wr .ok] } = true ∧ blockTurn (sending zeroFrame) = true ∧
      blockTurn { awaiting 0 zeroFrame [] with script := [.read 0] } = true ∧
      blockTurn (replied .awaitingReply zeroFrame 0) = true ∧ blockTurn (replied .verified zeroFrame 0) = true ∧
      blockTurn (replied .retrying zeroFrame 0) = true ∧
      ({ State.reset with invoke := some .encZero } : State).invoke = some .encZero := by decide

/-- Both moves, in a state of a cycle. -/
theorem witness_EnvironmentMovesTouchOnlyTheirPorts :
    (nextOf (step { awaiting 3 zeroFrame [1] with script := [.arrive [2, 3]] })).map State.rxq = some [1, 2, 3] ∧
      (nextOf (step { awaiting 3 zeroFrame [1] with script := [.offer (some neutral)] })).map State.offer
        = some (some neutral) ∧
      (nextOf (step { awaiting 3 zeroFrame [1] with ending := .again [.arrive [2]] })).map State.script
        = some [.arrive [2]] ∧
      (nextOf (step { awaiting 3 zeroFrame [1] with ending := .free })).map State.freeCount = some 1 := by decide

theorem witness_ResetInputRestoresRegisters :
    let s := { replied .fatal zeroFrame 5 with script := [.reset, .draw 1] }
    s.invoke = none ∧ s.script = .reset :: [.draw 1] ∧ s.st = .fatal ∧ s.retry ≠ 0 := by decide

theorem witness_ResetValuesAndOnlyExitFromFatal :
    let s := { replied .fatal zeroFrame 5 with script := [.reset] }
    s.invoke = none ∧ s.st = .fatal ∧ ∃ t, step s = .next t ∧ t.st ≠ .fatal :=
  ⟨rfl, rfl, _, rfl, by decide⟩

/-- The block's turn in `Fatal`, and a move of the environment there. -/
theorem witness_FatalIsAbsorbing :
    blockTurn (replied .fatal zeroFrame 0) = true ∧
      (∃ t, step { replied .fatal zeroFrame 0 with script := [.arrive [1]] } = .next t) ∧
      resetNext { replied .fatal zeroFrame 0 with script := [.arrive [1]] } = false :=
  ⟨by decide, ⟨_, rfl⟩, by decide⟩

/-- `Idle` without a snapshot; a snapshot offered during a cycle. -/
theorem witness_SnapshotsAreAcceptedInIdleOnly :
    (blockTurn State.reset = true ∧ State.reset.st = .idle ∧ State.reset.offer = none) ∧
    (∃ t, step { sending zeroFrame with script := [.offer (some neutral)] } = .next t ∧ t.offer = some neutral) ∧
    resetNext { sending zeroFrame with script := [.offer (some neutral)] } = false :=
  ⟨by decide, ⟨_, rfl, rfl⟩, by decide⟩

/-- A next state on the block's turn in each state that has one. -/
theorem witness_StepFollowsTheStateGraph :
    let next := fun s => blockTurn s && (nextOf (step s)).isSome
    next State.reset = true ∧ next { State.reset with offer := some neutral } = true ∧
      next { sending zeroFrame with script := [.draw 0] } = true ∧
      next { sending zeroFrame with script := [.draw 0, .wr (.fail 7)] } = true ∧
      next { awaiting 7 zeroFrame [1] with script := [.read 1] } = true ∧
      next (replied .awaitingReply zeroFrame 0) = true ∧
      next (replied .awaitingReply ⟨0, 0, 0, 0, 0, 0, 0, 0x5A⟩ 0) = true ∧
      next (replied .verified zeroFrame 0) = true ∧ next (replied .retrying zeroFrame 0) = true := by decide

/-- Each clause: a reset with bytes queued and an arrival in `AwaitingReply`, a turn outside it, a read that takes a byte. -/
theorem witness_OnlyReadsTakeFromTheReceiveQueue :
    (∃ t, blockTurn { awaiting 0 zeroFrame [1] with script := [.reset] } = false ∧
      step { awaiting 0 zeroFrame [1] with script := [.reset] } = .next t ∧ t.rxq = [1]) ∧
    (∃ t, step { awaiting 0 zeroFrame [1] with script := [.arrive [2]] } = .next t ∧ t.rxq = [1, 2]) ∧
    (∃ t, step { replied .retrying zeroFrame 0 with rxq := [1] } = .next t ∧ t.rxq = [1]) ∧
    (∃ t, step { awaiting 7 zeroFrame [1, 2] with script := [.read 8] } = .next t ∧ t.rxcnt = 8 ∧ t.rxq = [2]) :=
  ⟨⟨_, rfl, rfl, rfl⟩, ⟨_, rfl, rfl⟩, ⟨_, rfl, rfl⟩, ⟨_, rfl, rfl, rfl⟩⟩

/-- A completed and a failed write, and a step that transmits nothing. -/
theorem witness_TransmitStreamGrowsByFramePrefixes :
    (∃ t, step { sending zeroFrame with script := [.draw 5, .wr .ok] } = .next t ∧ t.tx.length = 8) ∧
      (∃ t, step { sending zeroFrame with script := [.draw 5, .wr (.fail 7)] } = .next t ∧ t.tx.length = 7) ∧
      ∃ t, step (replied .retrying zeroFrame 0) = .next t ∧ t.tx = [] :=
  ⟨⟨_, rfl, rfl⟩, ⟨_, rfl, rfl⟩, ⟨_, rfl, rfl⟩⟩

/-- P6: three bytes held, nothing more to come, with and without reads in the script. -/
theorem witness_SilentLinkHangs :
    let s := { awaiting 3 ⟨10, 10, 0, 0, 0, 0, 0, 0⟩ [] with script := [.read 5, .turn, .read 0] }
    let s' := { s with ending := .again [.read 2, .turn] }
    s.invoke = none ∧ s.ending = .silent ∧ s'.ending = .again [.read 2, .turn] ∧
      (∀ e ∈ s.script ++ [.read 2, .turn], e = .turn ∨ ∃ k, e = .read k) ∧ s.st = .awaitingReply ∧ s.rxcnt < 8 ∧
      s.rxq = [] :=
  ⟨rfl, rfl, rfl, by simp, rfl, by decide, rfl⟩

theorem witness_AwaitingReplyIsLeftOnlyWithFullReply :
    let s := { awaiting 7 zeroFrame [1] with script := [.read 1] }
    s.invoke = none ∧ s.st = .awaitingReply ∧ s.rxcnt < 8 ∧ resetNext s = false ∧ ∃ t, step s = .next t :=
  ⟨rfl, rfl, by decide, by decide, _, rfl⟩

/-- A state of the invariant in each state of the exchange that constrains it, and a step from one. -/
theorem witness_StepKeepsInvariant :
    Inv (replied .retrying zeroFrame 0) ∧ (∃ t, step (replied .retrying zeroFrame 0) = .next t) ∧
      Inv (replied .verified ⟨0, 0, 0, 0, 0, 0, 0, 0x5A⟩ 0) :=
  ⟨⟨by decide, by decide, by decide, by decide, by decide, by decide, by decide, by decide⟩, ⟨_, rfl⟩,
    ⟨by decide, by decide, by decide, by decide, by decide, by decide, by decide, by decide⟩⟩

/-- V60's split 0, 0, 0, 3, 0, 5. -/
theorem witness_FragmentsAssembleOneFrame :
    let cs : List (List Byte) := [[], [], [], [1, 2, 3], [], [4, 5, 6, 7, 8]]
    let s := { awaiting 0 zeroFrame [] with script := cs.flatMap lineRx ++ [] }
    s.invoke = none ∧ s.st = .awaitingReply ∧ s.rxcnt = 0 ∧ cs.dropLast.flatten.length < 8 ∧ cs.flatten.length ≤ 8 := by
  decide

/-- V63: two attempts with equal draws, the first reply zero. -/
theorem witness_RetryCountLaw :
    let failed : List Attempt := [⟨0x42, zeroFrame⟩]
    let last : Attempt := ⟨0x42, ⟨0, 0, 0, 0, 0, 0, 0, 0x42⟩⟩
    let s : State := { State.reset with
      offer := some neutral, script := attemptAnswers (failed ++ [last]) ++ [],
      rxq := attemptReplies (failed ++ [last]) ++ [] }
    s.invoke = none ∧ s.st = .idle ∧ (∃ u, exec (.cycleStart neutral) s = .next u) ∧
      (∀ a ∈ failed, a.accepted = false) ∧ last.accepted = true ∧
      (∀ e, ([] : List EnvInput).head? = some e → isAnswer e = true) ∧ s.ending = .silent :=
  ⟨rfl, rfl, ⟨_, rfl⟩, by decide, by decide, by simp, rfl⟩

/-- The smallest cap; two counters above it. -/
theorem witness_SaturatingRetryIsIndistinguishable :
    2 ≤ 2 ∧ saturate 2 (replied .retrying zeroFrame 3) = saturate 2 (replied .retrying zeroFrame 2) ∧
      replied .retrying zeroFrame 3 ≠ replied .retrying zeroFrame 2 ∧
      (∃ t, step (replied .retrying zeroFrame 3) = .next t) ∧
      step (replied .fatal zeroFrame 3) = .fault .eWrite :=
  ⟨by decide, by decide, by decide, ⟨_, rfl⟩, rfl⟩

/-- The ends of each operand's range. -/
theorem witness_DecodeInvertsEncode :
    (Instr.recv 8).wellFormed 16 = true ∧ (Instr.recv 0).wellFormed 16 = true ∧
      (Instr.send 254 (.fail 7)).wellFormed 16 = true ∧ (Instr.drive (-32768)).wellFormed 16 = true ∧
      (Instr.drive 2047).wellFormed 12 = true := by decide

/-- A code with the bit of `W` that is not examined, and one without. -/
theorem witness_EncodeInvertsDecode :
    decodeInstr 16 [0x09] = .ok (.retry, []) ∧ decodeInstr 16 [0x04, 8, 0xAA] = .ok (.recv 8, [0xAA]) := ⟨rfl, rfl⟩

/-- The states of a run, the last of them for ever once it stops. -/
def runFrom (s : State) : Nat → State
  | 0 => s
  | n + 1 => (nextOf (step (runFrom s n))).getD (runFrom s n)

theorem step_of_nextOf {o : Host.Outcome State Fault Refusal} {t : State} (h : nextOf o = some t) : o = .next t := by
  cases o <;> simp_all [nextOf]

/-- A cycle whose reply comes in two fragments, the second after an empty read, with a surplus byte left in RXQ. -/
def fragmentedCycle : Nat → State := runFrom { State.reset with
  offer := some neutral
  script := [.draw 0x5A, .arrive [1, 2, 3], .read 8, .read 8, .arrive [0, 0, 0, 0, 0x5A, 9], .read 8] }

theorem witness_CompletedCycleObeysRetryCountLaw :
    let σ := fragmentedCycle
    (σ 0).invoke = none ∧ (σ 0).st = .idle ∧ (σ 1).st = .sending ∧
      (∀ k, k < 9 → step (σ k) = .next (σ (k + 1)) ∧ resetNext (σ k) = false) ∧
      (∀ k, 0 < k → k < 9 → (σ k).st ≠ .idle) ∧ (σ 9).st = .idle ∧ (σ 9).rxq = [9] := by
  have h1 : ∀ k < 9, nextOf (step (fragmentedCycle k)) = some (fragmentedCycle (k + 1)) := by decide
  have h2 : ∀ k < 9, resetNext (fragmentedCycle k) = false := by decide
  have h3 : ∀ k < 9, 0 < k → (fragmentedCycle k).st ≠ .idle := by decide
  exact ⟨by decide, by decide, by decide, fun k hk => ⟨step_of_nextOf (h1 k hk), h2 k hk⟩, fun k h hk => h3 k hk h,
    by decide, by decide⟩

/-- Each form of the script: a turn alone in `Verified`, and with the answers of SEND and of RECV. -/
theorem witness_AMoveCanFollowAnyOperation :
    isMove (.arrive [1]) = true ∧ isMove .reset = true ∧
      (nextOf (step { replied .verified zeroFrame 0 with script := [.turn, .arrive [1]] })).isSome = true ∧
      (nextOf (step { sending zeroFrame with script := [.turn, .draw 1, .wr .ok, .reset] })).map State.script
        = some [.reset] ∧
      (nextOf (step { awaiting 7 zeroFrame [] with script := [.turn, .read 1, .offer none] })).map State.script
        = some [.offer none] := by decide

theorem witness_ParametersNeverChange :
    ∃ t, step { State.reset with params := ⟨12, 1024⟩, script := [.reset] } = .next t ∧ t.params = ⟨12, 1024⟩ := ⟨_, rfl, rfl⟩

/-- A loop of two attempts, one reply zero and one whose verification byte is 255. -/
theorem witness_MismatchingForeverNeverEnds :
    let as : List Attempt := [⟨0x42, zeroFrame⟩, ⟨254, ⟨0, 0, 0, 0, 0, 0, 0, 255⟩⟩]
    let s : State := { sending zeroFrame with script := attemptLines as, ending := .again (attemptLines as) }
    s.invoke = none ∧ s.st = .sending ∧ s.rxq = [] ∧ as ≠ [] ∧ (∀ a ∈ as, a.accepted = false) ∧
      (nextOf (run 11 s)).map (fun t => (t.st, t.retry, t.script == s.script)) = some (.sending, 2, true) := by decide

end Sys2Proof.Tests
end

/-! The launch parameters are constants (R6, R9, log 2): each kind of step hands them on. -/

namespace Sys2Proof.Machine

@[simp] theorem afterCycleStart_params (sn : Snapshot) (s : State) : (afterCycleStart sn s).params = s.params := by
  simp [afterCycleStart]
@[simp] theorem afterSend_params (v : Draw) (o : WriteOutcome) (s : State) : (afterSend v o s).params = s.params := rfl
@[simp] theorem afterRecv_params (k : Nat) (s : State) : (afterRecv k s).params = s.params := rfl
@[simp] theorem afterRetry_params (s : State) : (afterRetry s).params = s.params := rfl
@[simp] theorem afterDeliver_params (s : State) : (afterDeliver s).params = s.params := rfl

/-- No packing function writes the parameters. -/
theorem exec_function_params {i : Instr} (hi : i.row.isTransition = false) {s t : State} (h : exec i s = .next t) :
    t.params = s.params := by
  obtain ⟨r, l, p, hexec, -⟩ := exec_function hi s
  rw [hexec] at h
  cases h
  rfl

/-- No operation writes the parameters, whether the state machine selects it or it is run at the invocation port. -/
theorem exec_params {i : Instr} {s t : State} (h : exec i s = .next t) : t.params = s.params := by
  cases i with
  | cycleStart sn => obtain ⟨-, rfl⟩ := execCycleStart_next.1 h; simp
  | send v o => obtain ⟨-, rfl⟩ := execSend_next.1 h; simp
  | recv k => obtain ⟨-, rfl⟩ := execRecv_next.1 h; simp
  | verify => obtain ⟨-, rfl⟩ := execVerify_next.1 h; rfl
  | deliver => obtain ⟨-, rfl⟩ := execDeliver_next.1 h; simp
  | retry => obtain ⟨-, rfl⟩ := execRetry_next.1 h; simp
  | encode | drive | encLdrive | encRdrive | pair | encAuger | encToggle | encRail | encZero | decode =>
    exact exec_function_params rfl h

/-- No move of the environment writes the parameters, the reset input (R140) among them. -/
theorem envMove_params {s t : State} (h : envMove s = some t) : t.params = s.params := by
  obtain ⟨_, _, -, rfl⟩ | ⟨_, _, -, rfl⟩ | ⟨_, -, rfl⟩ | ⟨-, -, _, _, rfl⟩ := envMove_some h
  · rfl
  · rfl
  · exact applyReset_params _
  · rfl

/-- The block's turn does not write the parameters: neither the wait of R97 nor any transition. -/
theorem blockStep_params {s t : State} (h : blockStep s = .next t) : t.params = s.params := by
  obtain ⟨-, -, rfl⟩ | ⟨-, sn, -, rfl⟩ | ⟨-, v, o, sc, n, rfl⟩ | ⟨-, -, k, sc, n, rfl⟩ | ⟨-, -, rfl⟩ | ⟨-, rfl⟩ |
    ⟨-, rfl⟩ := blockStep_next h
  all_goals simp

/-- Settles O53, by the three kinds of step: the operation at the invocation port, a move of the
environment, the block's turn. -/
theorem parametersNeverChange : Obligations.ParametersNeverChange := by
  intro s t h
  obtain ⟨i, -, hexec⟩ | ⟨-, hmove⟩ | ⟨-, -, hblock⟩ := step_next h
  · simpa using exec_params hexec
  · exact envMove_params hmove
  · exact blockStep_params hblock

end Sys2Proof.Machine

/-! What each operation leaves unchanged (R11 to R17, R23, R30): the bytes of the two buffers, then the registers, the
streams and the ports. -/

namespace Sys2Proof.Machine

/-- CYCLE_START writes PKT below offset 7 only (R91). -/
theorem readByte_pkt_afterCycleStart {a : Nat} (ha : ¬ a < 7) (sn : Snapshot) (s : State) :
    readByte .pkt a (afterCycleStart sn s) = readByte .pkt a s := by
  have hwrite : readByte .pkt a (afterCycleStart sn s) = readByte .pkt a (memWrite .pkt 0 (encodeIn sn s).toList s) :=
    readByte_congr rfl rfl _ _
  rw [hwrite, readByte_memWrite_same, if_neg]
  simp [Command.toList, ha]

/-- SEND writes PKT at offset 7 only (R92). -/
theorem readByte_pkt_afterSend {a : Nat} (ha : a ≠ 7) (v : Draw) (o : WriteOutcome) (s : State) :
    readByte .pkt a (afterSend v o s) = readByte .pkt a s := by
  have hwrite : readByte .pkt a (afterSend v o s) = readByte .pkt a (memWrite .pkt 7 [drawByte v] s) :=
    readByte_congr rfl rfl _ _
  rw [hwrite, readByte_memWrite_same, if_neg]
  simp only [List.length_singleton]
  omega

/-- RECV writes RXBUF from the old RXCNT up to the new one only (R93). -/
theorem readByte_rxbuf_afterRecv {a k : Nat} {s : State} (ha : ¬ (s.rxcnt ≤ a ∧ a < (afterRecv k s).rxcnt)) :
    readByte .rxbuf a (afterRecv k s) = readByte .rxbuf a s := by
  have hwrite : readByte .rxbuf a (afterRecv k s) =
      readByte .rxbuf a (memWrite .rxbuf s.rxcnt (rxReadBytes (8 - s.rxcnt) k s) s) := readByte_congr rfl rfl _ _
  rw [hwrite, readByte_memWrite_same, if_neg]
  rw [rxReadBytes_length]
  exact fun ⟨hle, hlt, _⟩ => ha ⟨hle, hlt⟩

/-- The state a packing function leads to: its result is returned, LATCH and PREV are ENCODE's and ENC.TOGGLE's only,
nothing else is written (R70, R110). -/
theorem exec_function_next {i : Instr} (hi : i.row.isTransition = false) {s t : State} (h : exec i s = .next t) :
    ∃ (r : FnResult) (l p : Bool), t = { s with latch := l, prev := p, ret := some r } ∧
      (i.row ∉ [Row.encode, .encToggle] → l = s.latch ∧ p = s.prev) := by
  obtain ⟨r, l, p, hexec, hlatch⟩ := exec_function hi s
  exact ⟨r, l, p, Host.Outcome.next.inj (h.symm.trans hexec), hlatch⟩

/-- Settles O29, operation by operation: the three writers by the window each writes, the others because they leave
both frames as they were. -/
theorem onlyNamedOperationsWriteBuffers : Obligations.OnlyNamedOperationsWriteBuffers := by
  intro i s t h a
  cases i with
  | cycleStart sn =>
    obtain ⟨-, rfl⟩ := execCycleStart_next.1 h
    exact ⟨fun ha _ => readByte_pkt_afterCycleStart (fun hlt => ha ⟨rfl, hlt⟩) sn s, fun _ => rfl⟩
  | send v o =>
    obtain ⟨-, rfl⟩ := execSend_next.1 h
    exact ⟨fun _ ha => readByte_pkt_afterSend (fun heq => ha ⟨rfl, heq⟩) v o s, fun _ => rfl⟩
  | recv k =>
    obtain ⟨-, rfl⟩ := execRecv_next.1 h
    exact ⟨fun _ _ => rfl, fun ha => readByte_rxbuf_afterRecv fun hwin => ha ⟨rfl, hwin⟩⟩
  | verify => obtain ⟨-, rfl⟩ := execVerify_next.1 h; exact ⟨fun _ _ => rfl, fun _ => rfl⟩
  | deliver => obtain ⟨-, rfl⟩ := execDeliver_next.1 h; exact ⟨fun _ _ => rfl, fun _ => rfl⟩
  | retry => obtain ⟨-, rfl⟩ := execRetry_next.1 h; exact ⟨fun _ _ => rfl, fun _ => rfl⟩
  | encode | drive | encLdrive | encRdrive | pair | encAuger | encToggle | encRail | encZero | decode =>
    obtain ⟨r, l, p, rfl, -⟩ := exec_function_next rfl h
    exact ⟨fun _ _ => rfl, fun _ => rfl⟩

/-- Settles O30, operation by operation: a transition by the state it leads to, a packing function because it writes its
result and, ENCODE and ENC.TOGGLE only, LATCH and PREV. -/
theorem onlyNamedOperationsWriteRegisters : Obligations.OnlyNamedOperationsWriteRegisters := by
  intro i s t h
  cases i with
  | cycleStart sn => obtain ⟨-, rfl⟩ := execCycleStart_next.1 h; simp [Instr.row, afterCycleStart]
  | send v o => obtain ⟨-, rfl⟩ := execSend_next.1 h; simp [Instr.row, afterSend]
  | recv k => obtain ⟨-, rfl⟩ := execRecv_next.1 h; simp [Instr.row, afterRecv]
  | verify => obtain ⟨-, rfl⟩ := execVerify_next.1 h; simp [Instr.row]
  | deliver => obtain ⟨-, rfl⟩ := execDeliver_next.1 h; simp [Instr.row, afterDeliver]
  | retry => obtain ⟨-, rfl⟩ := execRetry_next.1 h; simp [Instr.row, afterRetry]
  | encode | drive | encLdrive | encRdrive | pair | encAuger | encToggle | encRail | encZero | decode =>
    obtain ⟨r, l, p, rfl, hlatch⟩ := exec_function_next rfl h
    exact ⟨fun _ => rfl, fun _ => rfl, fun _ => rfl, fun hrow => hlatch fun hmem => hrow (.tail _ hmem), fun _ => rfl,
      fun _ => rfl, fun _ => rfl, nofun, rfl, rfl, rfl, rfl, rfl, rfl⟩

end Sys2Proof.Machine

/-! The invariant (R14, R45, R55, R64, R94): it holds after reset, and every move of the environment, the reset input and
every transition of the block keep it. -/

namespace Sys2Proof.Machine

/-- `AUGER_DRIVE` has four bits (R52). -/
theorem augerByte_lt (sn : Snapshot) : (augerByte sn).toNat < 16 := by
  rw [augerByte, (packBits_four _ _ _ _).1]
  grind [Bool.toNat_le]

/-- `RAIL` has five bits (R53). -/
theorem railByte_lt (sn : Snapshot) (l : Bool) : (railByte sn l).toNat < 32 := by
  rw [railByte, (packBits_five _ _ _ _ _).1]
  grind [Bool.toNat_le]

/-- Neither auger group drives both ways at once (R58). -/
theorem augerByte_exclusive (sn : Snapshot) :
    ((augerByte sn).getLsbD 0 && (augerByte sn).getLsbD 1) = false ∧
    ((augerByte sn).getLsbD 2 && (augerByte sn).getLsbD 3) = false := by
  obtain ⟨hr1, hr0, hl1, hl0, -⟩ := augerByte_bits sn
  rw [hr1, hr0, hl1, hl0]
  exact ⟨pairOut_exclusive .., pairOut_exclusive ..⟩

/-- Rail-up and rail-down are never both set (R58). -/
theorem railByte_exclusive (sn : Snapshot) (l : Bool) :
    ((railByte sn l).getLsbD 2 && (railByte sn l).getLsbD 3) = false := by
  obtain ⟨-, -, hv1, hv0, -⟩ := railByte_bits sn l
  rw [hv1, hv0]
  exact pairOut_exclusive ..

/-- `RAIL` bit 4 is the latch (R45, R76). -/
theorem railByte_latch (sn : Snapshot) (l : Bool) : (railByte sn l).getLsbD 4 = l := by
  obtain ⟨-, -, -, -, hbit, -⟩ := railByte_bits sn l
  exact hbit

/-- What a legal command is, one clause per field (R51 to R54, R58, R64). -/
theorem commandLegal_iff (f : Frame) :
    commandLegal f = true ↔
      f.b0.toNat ≤ 20 ∧ f.b1.toNat ≤ 20 ∧
      f.b2.toNat < 16 ∧ (f.b2.getLsbD 0 && f.b2.getLsbD 1) = false ∧ (f.b2.getLsbD 2 && f.b2.getLsbD 3) = false ∧
      f.b3.toNat < 32 ∧ (f.b3.getLsbD 2 && f.b3.getLsbD 3) = false ∧
      f.b4 = 0 ∧ f.b5 = 0 ∧ f.b6 = 0 := by
  simp only [commandLegal, Bool.and_eq_true, decide_eq_true_eq, Bool.not_eq_true', beq_iff_eq, and_assoc]

/-- ENCODE's bytes at offsets 0 to 6 are a legal command, whatever stands at offset 7 (R64). -/
theorem commandLegal_encodeCommand (p : Params) (sn : Snapshot) (l : Bool) (b : Byte) :
    commandLegal ⟨driveByte p sn.axisL, driveByte p sn.axisR, augerByte sn, railByte sn l, zeroByte, zeroByte, zeroByte, b⟩
      = true :=
  (commandLegal_iff _).2 ⟨driveByte_le .., driveByte_le .., augerByte_lt sn, (augerByte_exclusive sn).1,
    (augerByte_exclusive sn).2, railByte_lt sn l, railByte_exclusive sn l, rfl, rfl, rfl⟩

/-- PKT after CYCLE_START: ENCODE's bytes with the new latch, offset 7 as it was (R91). -/
theorem afterCycleStart_pkt (sn : Snapshot) (s : State) :
    (afterCycleStart sn s).pkt =
      ⟨driveByte s.params sn.axisL, driveByte s.params sn.axisR, augerByte sn,
        railByte sn (latchNext s.latch s.prev sn.toggleBtn), zeroByte, zeroByte, zeroByte, s.pkt.b7⟩ := by
  simp [afterCycleStart, encodeIn, encodeCommand, Command.toList, writeFrom, setByte]

namespace Inv

variable {s : State}

/-- The invariant speaks of no port but the invocation port, and not of the script. -/
theorem ports (hs : Inv s) (o : Option Snapshot) (es : List EnvInput) (n : Nat) (q : List Byte) :
    Inv { s with offer := o, script := es, freeCount := n, rxq := q } := { hs with }

/-- The reset input leaves `Idle` and an empty reply, whatever the buffers hold (R25, R140). -/
theorem applyReset (hs : Inv s) : Inv (applyReset s) where
  rxcnt_le := Nat.zero_le 8
  params_wf := hs.params_wf
  no_invocation := hs.no_invocation
  command_legal := nofun
  latch_bit := nofun
  verification_ne := nofun
  verified_match := nofun
  retrying_mismatch := nofun

/-- CYCLE_START begins the cycle with a legal command that carries the new latch. -/
theorem afterCycleStart (hs : Inv s) (sn : Snapshot) : Inv (afterCycleStart sn s) where
  rxcnt_le := hs.rxcnt_le
  params_wf := hs.params_wf
  no_invocation := hs.no_invocation
  command_legal _ := by rw [afterCycleStart_pkt]; exact commandLegal_encodeCommand ..
  latch_bit _ := by rw [afterCycleStart_pkt]; exact railByte_latch ..
  verification_ne := nofun
  verified_match := nofun
  retrying_mismatch := nofun

/-- SEND empties the reply and writes offset 7 only, with a byte that is no 255. -/
theorem afterSend (hs : Inv s) (hst : s.st = .sending) (v : Draw) (o : WriteOutcome) : Inv (afterSend v o s) where
  rxcnt_le := Nat.zero_le 8
  params_wf := hs.params_wf
  no_invocation := hs.no_invocation
  command_legal _ := hs.command_legal (by rw [hst]; rfl)
  latch_bit _ := hs.latch_bit (by rw [hst]; rfl)
  verification_ne _ := drawByte_ne v
  verified_match := by cases o <;> nofun
  retrying_mismatch := by cases o <;> nofun

/-- RECV stores at most the bytes that are missing, in `AwaitingReply` where no reply is judged yet. -/
theorem afterRecv (hs : Inv s) (hst : s.st = .awaitingReply) (k : Nat) : Inv (afterRecv k s) where
  rxcnt_le := by
    have hcount := (rxReadCount_le (8 - s.rxcnt) k s).1
    have hle := hs.rxcnt_le
    simp only [Machine.afterRecv]
    omega
  params_wf := hs.params_wf
  no_invocation := hs.no_invocation
  command_legal := hs.command_legal
  latch_bit := hs.latch_bit
  verification_ne := hs.verification_ne
  verified_match h := by cases hst.symm.trans h
  retrying_mismatch h := by cases hst.symm.trans h

/-- VERIFY judges a full reply by the comparison that the next state stands for. -/
theorem afterVerify (hs : Inv s) (hst : s.st = .awaitingReply) (hfull : s.rxcnt = 8) :
    Inv { s with st := if s.rxbuf.b7 = s.pkt.b7 then .verified else .retrying } where
  rxcnt_le := hs.rxcnt_le
  params_wf := hs.params_wf
  no_invocation := hs.no_invocation
  command_legal _ := hs.command_legal (by rw [hst]; rfl)
  latch_bit _ := hs.latch_bit (by rw [hst]; rfl)
  verification_ne _ := hs.verification_ne (by rw [hst]; rfl)
  verified_match h := ⟨hfull, by simpa using h⟩
  retrying_mismatch h := ⟨hfull, by simpa using h⟩

/-- DELIVER ends the cycle. -/
theorem afterDeliver (hs : Inv s) : Inv (afterDeliver s) where
  rxcnt_le := hs.rxcnt_le
  params_wf := hs.params_wf
  no_invocation := hs.no_invocation
  command_legal := nofun
  latch_bit := nofun
  verification_ne := nofun
  verified_match := nofun
  retrying_mismatch := nofun

/-- RETRY goes back to `Sending` within the cycle, with the same command. -/
theorem afterRetry (hs : Inv s) (hst : s.st = .retrying) : Inv (afterRetry s) where
  rxcnt_le := hs.rxcnt_le
  params_wf := hs.params_wf
  no_invocation := hs.no_invocation
  command_legal _ := hs.command_legal (by rw [hst]; rfl)
  latch_bit _ := hs.latch_bit (by rw [hst]; rfl)
  verification_ne := nofun
  verified_match := nofun
  retrying_mismatch := nofun

/-- The block's turn keeps the invariant: the wait of R97 and each transition. -/
theorem blockStep (hs : Inv s) {t : State} (h : blockStep s = .next t) : Inv t := by
  have hturn : Inv (takeTurn s) := hs.ports ..
  obtain ⟨-, -, rfl⟩ | ⟨-, sn, -, rfl⟩ | ⟨hst, v, o, sc, n, rfl⟩ | ⟨hst, -, k, sc, n, rfl⟩ | ⟨hst, hfull, rfl⟩ |
    ⟨-, rfl⟩ | ⟨hst, rfl⟩ := blockStep_next h
  · exact hturn
  · exact (hturn.ports ..).afterCycleStart sn
  · exact (hs.ports s.offer sc n s.rxq).afterSend hst v o
  · exact (hs.ports s.offer sc n s.rxq).afterRecv hst k
  · exact hturn.afterVerify hst hfull
  · exact hturn.afterDeliver
  · exact hturn.afterRetry hst

end Inv

/-- Settles O43, field by field: `Idle` leaves only RXCNT, the parameters and the invocation port to check. -/
theorem resetEstablishesInvariant : Obligations.ResetEstablishesInvariant where
  rxcnt_le := Nat.zero_le 8
  params_wf := by decide
  no_invocation := rfl
  command_legal := nofun
  latch_bit := nofun
  verification_ne := nofun
  verified_match := nofun
  retrying_mismatch := nofun

/-- Settles O44: with nothing at the invocation port a step is a move of the environment, the reset input, new lines of the
script or the block's turn, and each keeps the invariant. -/
theorem stepKeepsInvariant : Obligations.StepKeepsInvariant := by
  intro s t hs h
  obtain ⟨o, rest, -, rfl⟩ | ⟨c, rest, -, rfl⟩ | ⟨rest, -, rfl⟩ | ⟨-, -, -, es, n, rfl⟩ | ⟨-, hblock⟩ :=
    step_next_uninvoked hs.no_invocation h
  · exact hs.ports ..
  · exact hs.ports ..
  · exact (hs.ports ..).applyReset
  · exact hs.ports ..
  · exact hs.blockStep hblock

/-- Settles O35: in `Fatal` no transition is enabled and no move but the reset input writes `ST`, so a step out of `Fatal`
is the reset input's. -/
theorem resetValuesAndOnlyExitFromFatal : Obligations.ResetValuesAndOnlyExitFromFatal := by
  refine ⟨⟨rfl, rfl, rfl, rfl, rfl⟩, fun s t hinvoke hfatal hstep hexit => ?_⟩
  obtain ⟨o, rest, -, rfl⟩ | ⟨c, rest, -, rfl⟩ | ⟨rest, hscript, rfl⟩ | ⟨-, -, -, es, n, rfl⟩ | ⟨-, hblock⟩ :=
    step_next_uninvoked hinvoke hstep
  · exact absurd hfatal hexit
  · exact absurd hfatal hexit
  · exact ⟨by simp [resetNext, hscript], rfl, rfl, rfl, rfl, rfl⟩
  · exact absurd hfatal hexit
  · simpa [hfatal] using blockStep_next hblock

end Sys2Proof.Machine

/-! The saturating retry counter (R15): a step of the saturated state is, once saturated, the step of the state itself, so
two states that agree once saturated make the same steps. -/

namespace Sys2Proof.Machine

/-- An outcome as a block whose retry counter saturates at `cap` would hold it (R15). -/
def saturateOutcome (cap : Nat) : Host.Outcome State Fault Refusal → Host.Outcome State Fault Refusal
  | .next t => .next (saturate cap t)
  | .fault f => .fault f
  | .refused r => .refused r

/-- What is fetched, as a block whose retry counter saturates at `cap` would fetch it (R15). -/
def saturateFetched (cap : Nat) : Fetched → Fetched
  | .run i s => .run i (saturate cap s)
  | .wait => .wait
  | .halted => .halted

section

variable {cap : Nat}

/-- A conditional commutes with a function that commutes with both branches, whatever decides the condition. -/
theorem ite_eq_apply {α β : Type} (f : α → β) {p : Prop} {d e : Decidable p} {a b : β} {a' b' : α} (ha : a = f a')
    (hb : b = f b') : @ite β p d a b = f (@ite α p e a' b') := by
  by_cases hp : p
  · rw [if_pos hp, if_pos hp, ha]
  · rw [if_neg hp, if_neg hp, hb]

theorem saturateOutcome_eq_next {o : Host.Outcome State Fault Refusal} {t : State}
    (h : saturateOutcome cap o = .next t) : ∃ u, o = .next u ∧ saturate cap u = t := by
  cases o with
  | next u => exact ⟨u, rfl, Host.Outcome.next.inj h⟩
  | fault f => cases h
  | refused r => cases h

theorem saturateOutcome_eq_fault {o : Host.Outcome State Fault Refusal} {f : Fault}
    (h : saturateOutcome cap o = .fault f) : o = .fault f := by
  cases o with
  | next u => cases h
  | fault g => cases h; rfl
  | refused r => cases h

@[simp] theorem saturate_st (s : State) : (saturate cap s).st = s.st := rfl
@[simp] theorem saturate_offer (s : State) : (saturate cap s).offer = s.offer := rfl
@[simp] theorem saturate_script (s : State) : (saturate cap s).script = s.script := rfl
@[simp] theorem saturate_ending (s : State) : (saturate cap s).ending = s.ending := rfl
@[simp] theorem saturate_invoke (s : State) : (saturate cap s).invoke = s.invoke := rfl

/-- A saturated counter stays as it is when saturated again. -/
@[simp] theorem saturate_saturate (s : State) : saturate cap (saturate cap s) = saturate cap s := by
  simp [saturate]

/-- From a cap of 2 up, a saturated counter gives every warning its severity (R20 d). -/
theorem severity_saturate (hcap : 2 ≤ cap) (n : Nat) : severity (min n cap + 1) = severity (n + 1) := by
  have hiff : min n cap + 1 < Config.sevThreshold ↔ n + 1 < Config.sevThreshold := by
    simp only [Config.sevThreshold]
    omega
  simp only [severity, hiff]

@[simp] theorem saturateOutcome_saturateOutcome (o : Host.Outcome State Fault Refusal) :
    saturateOutcome cap (saturateOutcome cap o) = saturateOutcome cap o := by
  cases o <;> simp [saturateOutcome]

/-- Every operation but RETRY commutes with saturation: CYCLE_START clears the counter, no other one reads or writes it. -/
theorem exec_saturate_of_ne_retry {i : Instr} (hi : i ≠ .retry) (s : State) :
    exec i (saturate cap s) = saturateOutcome cap (exec i s) := by
  cases i with
  | cycleStart sn => exact ite_eq_apply _ (by simp [saturateOutcome, saturate, goto, updateLatch, memWrite, encodeIn]) rfl
  | send v o => exact ite_eq_apply _ (by cases o <;> rfl) rfl
  | recv k => exact ite_eq_apply _ rfl rfl
  | verify => exact ite_eq_apply _ (ite_eq_apply _ rfl rfl) rfl
  | deliver => exact ite_eq_apply _ rfl rfl
  | retry => exact absurd rfl hi
  | encode | drive | encLdrive | encRdrive | pair | encAuger | encToggle | encRail | encZero | decode => rfl

/-- RETRY gives the same warning and, saturated, the same count (R95). -/
theorem execRetry_saturate (hcap : 2 ≤ cap) (s : State) :
    saturateOutcome cap (execRetry (saturate cap s)) = saturateOutcome cap (execRetry s) := by
  have hcount : min (min s.retry cap + 1) cap = min (s.retry + 1) cap := by omega
  unfold execRetry
  by_cases hst : s.st = .retrying
  · simp [saturate, hst, saturateOutcome, goto, emit, severity_saturate hcap, hcount]
  · simp [saturate, hst]

/-- An operation run in the saturated state ends as it does in the state itself, once saturated. -/
theorem exec_saturate (hcap : 2 ≤ cap) (i : Instr) (s : State) :
    saturateOutcome cap (exec i (saturate cap s)) = saturateOutcome cap (exec i s) := by
  by_cases hi : i = .retry
  · subst hi
    exact execRetry_saturate hcap s
  · rw [exec_saturate_of_ne_retry hi, saturateOutcome_saturateOutcome]

/-- SEND's answers do not depend on the counter (R36, R105). -/
theorem sendAnswer_saturate (s : State) :
    sendAnswer (saturate cap s) = ((sendAnswer s).1, (sendAnswer s).2.1, saturate cap (sendAnswer s).2.2) := by
  unfold sendAnswer
  rw [saturate_script]
  split <;> rfl

/-- RECV's answer does not depend on the counter (R37). -/
theorem readAnswer_saturate (s : State) :
    readAnswer (saturate cap s) = ((readAnswer s).1, saturate cap (readAnswer s).2) := by
  unfold readAnswer
  rw [saturate_script]
  split <;> rfl

/-- The operation selected and its operands do not depend on the counter (R63). -/
theorem fetch_saturate (s : State) : fetch (saturate cap s) = saturateFetched cap (fetch s) := by
  rw [fetch_eq, fetch_eq, sendAnswer_saturate, readAnswer_saturate, saturate_st]
  cases s.st with
  | idle =>
    rw [saturate_offer]
    cases s.offer <;> rfl
  | awaitingReply => exact ite_eq_apply _ rfl rfl
  | sending | verified | retrying | fatal => rfl

/-- The environment's moves do not depend on the counter, and only the reset input writes it (R140). -/
theorem envMove_saturate (s : State) : envMove (saturate cap s) = (envMove s).map (saturate cap) := by
  unfold envMove moreLines
  rw [saturate_script, saturate_ending]
  split
  · rfl
  · rfl
  · simp [applyReset, saturate]
  · cases s.ending <;> rfl
  all_goals rfl

/-- The block's turn in the saturated state ends as in the state itself, once saturated. -/
theorem blockStep_saturate (hcap : 2 ≤ cap) (s : State) :
    saturateOutcome cap (blockStep (saturate cap s)) = saturateOutcome cap (blockStep s) := by
  unfold blockStep
  rw [show takeTurn (saturate cap s) = saturate cap (takeTurn s) from rfl, fetch_saturate]
  cases fetch (takeTurn s) with
  | run i u => exact exec_saturate hcap i u
  | wait => exact congrArg Host.Outcome.next (saturate_saturate (takeTurn s))
  | halted => rfl

/-- A step of the saturated state is, once saturated, the step of the state itself (R15). -/
theorem step_saturate (hcap : 2 ≤ cap) (s : State) :
    saturateOutcome cap (step (saturate cap s)) = saturateOutcome cap (step s) := by
  unfold step
  rw [saturate_invoke, envMove_saturate]
  cases s.invoke with
  | some i => exact exec_saturate hcap i { s with invoke := none }
  | none =>
    cases envMove s with
    | some t => exact congrArg Host.Outcome.next (saturate_saturate t)
    | none => exact blockStep_saturate hcap s

end

/-- Settles O47: the steps of both states are, once saturated, the step of the one saturated state. -/
theorem saturatingRetryIsIndistinguishable : Obligations.SaturatingRetryIsIndistinguishable := by
  intro cap s u hcap hsu
  have hstep : saturateOutcome cap (step u) = saturateOutcome cap (step s) := by
    rw [← step_saturate hcap u, ← hsu, step_saturate hcap s]
  constructor
  · intro t ht
    rw [ht] at hstep
    obtain ⟨t', hu, hsat⟩ := saturateOutcome_eq_next hstep
    exact ⟨t', hu, hsat, (congrArg State.events hsat :), (congrArg State.tx hsat :)⟩
  · intro f hf
    rw [hf] at hstep
    exact saturateOutcome_eq_fault hstep

end Sys2Proof.Machine

/-! The moves of the environment (R46, R97, R140): each is the step whenever no function is presented, whatever the block
is doing, and it is no turn of the block. -/

namespace Sys2Proof.Machine

/-- A step with nothing at the invocation port is either the environment's move or the block's turn, never both (R9). -/
theorem step_next_cases {s t : State} (hinvoke : s.invoke = none) (h : step s = .next t) :
    (blockTurn s = false ∧ envMove s = some t) ∨ (blockTurn s = true ∧ blockStep s = .next t) := by
  obtain ⟨i, hport, -⟩ | ⟨-, hmove⟩ | ⟨-, hnone, hblock⟩ := step_next h
  · simp [hinvoke] at hport
  · exact .inl ⟨by simp [blockTurn, hmove], hmove⟩
  · exact .inr ⟨by simp [blockTurn, hinvoke, hnone], hblock⟩

section

variable {s : State} {m : EnvInput} {rest : List EnvInput} (hinvoke : s.invoke = none)

include hinvoke

/-- The environment's move is the next step, in every state of the block. -/
theorem step_envMove {t : State} (h : envMove s = some t) : step s = .next t := by
  simp [step, hinvoke, h]

/-- An arrival touches the tail of RXQ only (R46). -/
theorem step_arrive {c : List Byte} (h : s.script = .arrive c :: rest) :
    step s = .next { s with script := rest, rxq := s.rxq ++ c } :=
  step_envMove hinvoke (by simp [envMove, h])

/-- An offer touches the snapshot port only (R97). -/
theorem step_offer {o : Option Snapshot} (h : s.script = .offer o :: rest) :
    step s = .next { s with script := rest, offer := o } :=
  step_envMove hinvoke (by simp [envMove, h])

/-- The reset input is taken in every state of the block (R140). -/
theorem step_reset (h : s.script = .reset :: rest) : step s = .next (applyReset { s with script := rest }) :=
  step_envMove hinvoke (by simp [envMove, h])

/-- A used-up script that repeats gets its lines again, and nothing else changes (log 25). -/
theorem step_again {es : List EnvInput} (h : s.script = []) (hending : s.ending = .again es) :
    step s = .next { s with script := es } :=
  step_envMove hinvoke (by simp [envMove, moreLines, h, hending])

/-- A used-up script that goes on freely gets free lines, for one free value (log 25). -/
theorem step_free (h : s.script = []) (hending : s.ending = .free) :
    step s = .next { s with script := Config.freeLines s.freeCount, freeCount := s.freeCount + 1 } :=
  step_envMove hinvoke (by simp [envMove, moreLines, h, hending])

/-- A move at the head of the script is the next step, and it is consumed. -/
theorem step_isMove (hm : isMove m = true) (h : s.script = m :: rest) : ∃ u, step s = .next u ∧ u.script = rest := by
  cases m with
  | offer o => exact ⟨_, step_offer hinvoke h, rfl⟩
  | arrive c => exact ⟨_, step_arrive hinvoke h, rfl⟩
  | reset => exact ⟨_, step_reset hinvoke h, rfl⟩
  | draw | wr | read | turn => cases hm

end

/-- Settles O33, move by move. -/
theorem environmentMovesTouchOnlyTheirPorts : Obligations.EnvironmentMovesTouchOnlyTheirPorts := by
  intro s rest hinvoke
  exact ⟨fun c h => step_arrive hinvoke h, fun o h => step_offer hinvoke h, fun h =>
    ⟨fun es hending => step_again hinvoke h hending, fun hending => ⟨_, step_free hinvoke h hending⟩⟩⟩

end Sys2Proof.Machine

/-! The receive queue and the TX stream (R36, R39, R42): what the environment's moves and the block's turn do to each. -/

namespace Sys2Proof.Machine

variable {s t : State}

/-- A move of the environment takes no byte from RXQ, the reset input included, and appends what arrives (R39, R46). -/
theorem envMove_rxq (h : envMove s = some t) : t.rxq = s.rxq ++ arriving s := by
  obtain ⟨o, rest, hscript, rfl⟩ | ⟨c, rest, hscript, rfl⟩ | ⟨rest, hscript, rfl⟩ | ⟨hscript, -, es, n, rfl⟩ :=
    envMove_some h
  all_goals simp [arriving, hscript]

/-- A move of the environment transmits nothing and takes nothing back (R42). -/
theorem envMove_tx (h : envMove s = some t) : t.tx = s.tx := by
  obtain ⟨o, rest, -, rfl⟩ | ⟨c, rest, -, rfl⟩ | ⟨rest, -, rfl⟩ | ⟨-, -, es, n, rfl⟩ := envMove_some h
  · rfl
  · rfl
  · exact applyReset_tx _
  · rfl

@[simp] theorem afterCycleStart_rxq (sn : Snapshot) (s : State) : (afterCycleStart sn s).rxq = s.rxq := by
  simp [afterCycleStart]
@[simp] theorem afterCycleStart_tx (sn : Snapshot) (s : State) : (afterCycleStart sn s).tx = s.tx := by
  simp [afterCycleStart]

/-- Outside `AwaitingReply` the block's turn leaves RXQ alone (R39). -/
theorem blockStep_rxq_of_ne_awaitingReply (hst : s.st ≠ .awaitingReply) (h : blockStep s = .next t) :
    t.rxq = s.rxq := by
  obtain ⟨-, -, rfl⟩ | ⟨-, sn, -, rfl⟩ | ⟨-, v, o, sc, n, rfl⟩ | ⟨hawait, -⟩ | ⟨hawait, -⟩ | ⟨-, rfl⟩ | ⟨-, rfl⟩ :=
    blockStep_next h
  · exact takeTurn_rxq s
  · exact afterCycleStart_rxq sn _
  · rfl
  · exact absurd hawait hst
  · exact absurd hawait hst
  · rfl
  · rfl

/-- RECV takes from the head of RXQ as many bytes as RXCNT grows by, within the eight of a frame (R37, R40, R93). -/
theorem afterRecv_rxq (k : Nat) (hlt : s.rxcnt < 8) :
    s.rxcnt ≤ (afterRecv k s).rxcnt ∧ (afterRecv k s).rxcnt ≤ 8 ∧
      (afterRecv k s).rxq = s.rxq.drop ((afterRecv k s).rxcnt - s.rxcnt) := by
  have hcount := (rxReadCount_le (8 - s.rxcnt) k s).1
  simp only [afterRecv, Nat.add_sub_cancel_left]
  exact ⟨by omega, by omega, trivial⟩

/-- In `AwaitingReply` the block's turn is a read or, with a full reply, VERIFY, which reads nothing (R93, R94). -/
theorem blockStep_rxq_of_awaitingReply (hst : s.st = .awaitingReply) (h : blockStep s = .next t) :
    s.rxcnt ≤ t.rxcnt ∧ t.rxcnt ≤ 8 ∧ t.rxq = s.rxq.drop (t.rxcnt - s.rxcnt) := by
  obtain ⟨hst', -⟩ | ⟨hst', -⟩ | ⟨hst', -⟩ | ⟨-, hlt, k, sc, n, rfl⟩ | ⟨-, hfull, rfl⟩ | ⟨hst', -⟩ | ⟨hst', -⟩ :=
    blockStep_next h
  · cases hst.symm.trans hst'
  · cases hst.symm.trans hst'
  · cases hst.symm.trans hst'
  · exact afterRecv_rxq (s := { s with script := sc, freeCount := n }) k hlt
  · simp [hfull]
  · cases hst.symm.trans hst'
  · cases hst.symm.trans hst'

/-- Settles O39: a step is a move of the environment, or the block's turn outside or in `AwaitingReply`. -/
theorem onlyReadsTakeFromTheReceiveQueue : Obligations.OnlyReadsTakeFromTheReceiveQueue := by
  intro s t hinvoke hstep
  obtain ⟨hturn, hmove⟩ | ⟨hturn, hblock⟩ := step_next_cases hinvoke hstep
  · exact ⟨fun _ => envMove_rxq hmove, fun h => by simp [hturn] at h, fun h => by simp [hturn] at h⟩
  · exact ⟨fun h => by simp [hturn] at h, fun _ hst => blockStep_rxq_of_ne_awaitingReply hst hblock,
      fun _ hst => blockStep_rxq_of_awaitingReply hst hblock⟩

/-- The block's turn transmits nothing outside `Sending`; in `Sending` it is a SEND (R42, R92). -/
theorem blockStep_tx (h : blockStep s = .next t) :
    (s.st ≠ .sending ∧ t.tx = s.tx) ∨
    (s.st = .sending ∧ ∃ v o sc n, t = afterSend v o { s with script := sc, freeCount := n }) := by
  obtain ⟨hst, -, rfl⟩ | ⟨hst, sn, -, rfl⟩ | hsend | ⟨hst, -, k, sc, n, rfl⟩ | ⟨hst, -, rfl⟩ | ⟨hst, rfl⟩ |
    ⟨hst, rfl⟩ := blockStep_next h
  · exact .inl ⟨by simp [hst], rfl⟩
  · exact .inl ⟨by simp [hst], afterCycleStart_tx sn _⟩
  · exact .inr hsend
  all_goals exact .inl ⟨by simp [hst], rfl⟩

/-- A write puts at most the eight bytes of a frame on the TX stream (R36). -/
theorem bytesEmitted_le (o : WriteOutcome) : bytesEmitted o ≤ 8 := by
  cases o with
  | ok => exact Nat.le_refl 8
  | fail j => exact Nat.le_of_lt j.isLt

/-- SEND leads to `AwaitingReply` exactly when its write puts all eight bytes on the TX stream (R36, R92, R121). -/
theorem bytesEmitted_eq_iff (v : Draw) (o : WriteOutcome) (s : State) :
    bytesEmitted o = 8 ↔ (afterSend v o s).st = .awaitingReply := by
  cases o with
  | ok => exact iff_of_true rfl rfl
  | fail j => exact iff_of_false (Nat.ne_of_lt j.isLt) nofun

/-- Settles O40: a SEND transmits as many bytes of PKT as its write outcome says, every other step none. -/
theorem transmitStreamGrowsByFramePrefixes : Obligations.TransmitStreamGrowsByFramePrefixes := by
  intro s t hinvoke hstep
  obtain ⟨hturn, hmove⟩ | ⟨hturn, hblock⟩ := step_next_cases hinvoke hstep
  · exact ⟨0, by omega, by simp [envMove_tx hmove], fun _ => rfl, fun _ h => by simp [hturn] at h⟩
  obtain ⟨hst, htx⟩ | ⟨hst, v, o, sc, n, rfl⟩ := blockStep_tx hblock
  · exact ⟨0, by omega, by simp [htx], fun _ => rfl, fun h => absurd h hst⟩
  · exact ⟨bytesEmitted o, bytesEmitted_le o, rfl, fun hno => by simp [hst, hturn] at hno,
      fun _ _ => bytesEmitted_eq_iff v o _⟩

end Sys2Proof.Machine

/-! A turn of the block and then a move of the environment (R9, R46, log 6): the turn takes its entry of the script and the
answers its operation asks for, and leaves the script at the move. -/

namespace Sys2Proof.Machine

/-- The answers an operation enabled in `s` may find in the script: none, SEND's two, or RECV's one (R36, R37, R92). -/
def answersFit (s : State) (as : List EnvInput) : Prop :=
  as = [] ∨ (s.st = .sending ∧ ∃ v o, as = [.draw v, .wr o]) ∨
    (s.st = .awaitingReply ∧ s.rxcnt < 8 ∧ ∃ k, as = [.read k])

variable {s t u : State} {as : List EnvInput} {m : EnvInput} {rest : List EnvInput}

/-- SEND takes both its answers from the script. -/
theorem sendAnswer_script_draw_wr {v : Draw} {o : WriteOutcome} (h : s.script = .draw v :: .wr o :: rest) :
    (sendAnswer s).2.2.script = rest := by
  simp [sendAnswer, h]

/-- SEND with no answer in the script takes nothing from it: a move stays at the head. -/
theorem sendAnswer_script_move (hm : isMove m = true) (h : s.script = m :: rest) :
    (sendAnswer s).2.2.script = m :: rest := by
  cases m with
  | offer | arrive | reset => simp [sendAnswer, h]
  | draw | wr | read | turn => cases hm

/-- RECV takes its answer from the script. -/
theorem readAnswer_script_read {k : Nat} (h : s.script = .read k :: rest) : (readAnswer s).2.script = rest := by
  simp [readAnswer, h]

/-- RECV with no answer in the script takes nothing from it: a move stays at the head. -/
theorem readAnswer_script_move (hm : isMove m = true) (h : s.script = m :: rest) :
    (readAnswer s).2.script = m :: rest := by
  cases m with
  | offer | arrive | reset => simp [readAnswer, h]
  | draw | wr | read | turn => cases hm

/-- In `Sending` the operation runs in the state SEND's answers leave. -/
theorem fetch_run_sending {i : Instr} (hst : s.st = .sending) (h : fetch s = .run i u) : u = (sendAnswer s).2.2 := by
  simp only [fetch_eq, hst] at h
  cases h
  rfl

/-- In `AwaitingReply` with a reply incomplete the operation runs in the state RECV's answer leaves. -/
theorem fetch_run_receiving {i : Instr} (hst : s.st = .awaitingReply) (hne : s.rxcnt ≠ 8) (h : fetch s = .run i u) :
    u = (readAnswer s).2 := by
  simp only [fetch_eq, hst, hne, if_false] at h
  cases h
  rfl

/-- The state an operation runs in: SEND's and RECV's answers taken, or the script and the invocation port as they were. -/
theorem fetch_run_state {i : Instr} (h : fetch s = .run i u) :
    u = (sendAnswer s).2.2 ∨ u = (readAnswer s).2 ∨ (u.script = s.script ∧ u.invoke = s.invoke) := by
  have hfetch := h
  rw [fetch_eq] at hfetch
  cases hst : s.st <;> simp only [hst] at hfetch
  case idle => cases ho : s.offer <;> simp only [ho] at hfetch <;> cases hfetch; exact .inr (.inr ⟨rfl, rfl⟩)
  case sending => exact .inl (fetch_run_sending hst h)
  case awaitingReply =>
    by_cases hfull : s.rxcnt = 8
    · rw [if_pos hfull] at hfetch
      cases hfetch
      exact .inr (.inr ⟨rfl, rfl⟩)
    · exact .inr (.inl (fetch_run_receiving hst hfull h))
  case verified | retrying => cases hfetch; exact .inr (.inr ⟨rfl, rfl⟩)
  case fatal => cases hfetch

/-- Only `Idle` makes the block wait (R97). -/
theorem fetch_wait (h : fetch s = .wait) : s.st = .idle := by
  rw [fetch_eq] at h
  cases hst : s.st <;> simp only [hst] at h
  case idle => rfl
  case awaitingReply => split at h <;> cases h
  all_goals cases h

/-- Fetching never writes the invocation port. -/
theorem fetch_run_invoke {i : Instr} (h : fetch s = .run i u) : u.invoke = s.invoke := by
  obtain rfl | rfl | ⟨-, hinvoke⟩ := fetch_run_state h
  · obtain ⟨sc, n, e⟩ := sendAnswer_state s
    rw [e]
  · obtain ⟨sc, n, e⟩ := readAnswer_state s
    rw [e]
  · exact hinvoke

/-- With fitting answers and then a move in the script, fetching takes the answers and leaves the script at the move. -/
theorem fetch_run_script {i : Instr} (hm : isMove m = true) (has : answersFit s as) (hscript : s.script = as ++ m :: rest)
    (h : fetch s = .run i u) : u.script = m :: rest := by
  obtain rfl | ⟨hst, v, o, rfl⟩ | ⟨hst, hlt, k, rfl⟩ := has
  · obtain rfl | rfl | ⟨hkept, -⟩ := fetch_run_state h
    · exact sendAnswer_script_move hm hscript
    · exact readAnswer_script_move hm hscript
    · exact hkept.trans hscript
  · rw [fetch_run_sending hst h]
    exact sendAnswer_script_draw_wr hscript
  · rw [fetch_run_receiving hst (Nat.ne_of_lt hlt) h]
    exact readAnswer_script_read hscript

/-- The block's turn runs what it fetches, or waits in `Idle` (R97). -/
theorem blockStep_next_fetched (h : blockStep s = .next t) :
    (∃ i u, fetch (takeTurn s) = .run i u ∧ exec i u = .next t) ∨ (s.st = .idle ∧ t = takeTurn s) := by
  unfold blockStep at h
  cases hfetch : fetch (takeTurn s) <;> simp only [hfetch] at h
  case run i u => exact .inl ⟨i, u, rfl, h⟩
  case wait => cases h; exact .inr ⟨fetch_wait (s := takeTurn s) hfetch, rfl⟩
  case halted => cases h

/-- An operation leaves the script and the invocation port alone. -/
theorem exec_script_invoke {i : Instr} (h : exec i s = .next t) : t.script = s.script ∧ t.invoke = s.invoke := by
  obtain ⟨-, -, -, -, -, -, -, -, -, hscript, -, -, hinvoke, -⟩ := onlyNamedOperationsWriteRegisters i s t h
  exact ⟨hscript, hinvoke⟩

/-- A turn of the block that the script answers fittingly leaves the script at the move that follows. -/
theorem blockStep_script (hm : isMove m = true) (has : answersFit s as)
    (hscript : s.script = .turn :: (as ++ m :: rest)) (h : blockStep s = .next t) :
    t.script = m :: rest ∧ t.invoke = s.invoke := by
  have hturn : (takeTurn s).script = as ++ m :: rest := by rw [takeTurn_script, hscript, afterTurn_turn]
  obtain ⟨i, u, hfetch, hexec⟩ | ⟨hidle, rfl⟩ := blockStep_next_fetched h
  · obtain ⟨hs, hi⟩ := exec_script_invoke hexec
    exact ⟨hs.trans (fetch_run_script (s := takeTurn s) hm has hturn hfetch),
      hi.trans (fetch_run_invoke (s := takeTurn s) hfetch)⟩
  · obtain rfl | ⟨hst, -⟩ | ⟨hst, -⟩ := has
    · exact ⟨hturn, rfl⟩
    · cases hidle.symm.trans hst
    · cases hidle.symm.trans hst

/-- Settles O52: the entry `turn` gives the block its turn, which leaves the script at the move, and that is the next step. -/
theorem aMoveCanFollowAnyOperation : Obligations.AMoveCanFollowAnyOperation := by
  intro s t as m rest hinvoke hm has hscript hstep
  have hturn : blockTurn s = true := by simp [blockTurn, hinvoke, envMove, hscript]
  obtain ⟨ht, hti⟩ := blockStep_script hm has hscript (step_blockTurn hturn ▸ hstep)
  have htinvoke : t.invoke = none := hti.trans hinvoke
  refine ⟨ht, step_isMove htinvoke hm ht, ?_⟩
  rintro c rfl
  exact step_arrive htinvoke ht

end Sys2Proof.Machine

/-! Codes (R63, log 14): for each part of the decoder, what it answers is said once, by an equivalence: it reads `x` with
`rest` left over exactly when `x` is well formed and the bytes are the code of `x` and then `rest`. Read from left to right it
says that encoding inverts decoding, from right to left that decoding inverts encoding. -/

namespace Sys2Proof

/-- The bits of a packed number, bit 0 first (R7, R57). -/
theorem testBit_packBits (bs : List Bool) (i : Nat) : (packBits bs).testBit i = bs.getD i false := by
  induction bs generalizing i with
  | nil => simp [packBits]
  | cons b bs ih =>
    have hodd : (b.toNat + 2 * packBits bs) % 2 = b.toNat := by have := b.toNat_le; omega
    have hhalf : (b.toNat + 2 * packBits bs) / 2 = packBits bs := by have := b.toNat_le; omega
    cases i with
    | zero => simp [packBits, Nat.testBit_zero, hodd]
    | succ i => simp [packBits, Nat.testBit_succ, hhalf, ih]

/-- `n` packed bits are less than `2 ^ n`. -/
theorem packBits_lt (bs : List Bool) : packBits bs < 2 ^ bs.length := by
  induction bs with
  | nil => simp [packBits]
  | cons b bs ih =>
    have := b.toNat_le
    simp only [packBits, List.length_cons, Nat.pow_succ]
    omega

/-- The bits of a byte packed from a list of them. -/
theorem getLsbD_ofNat_packBits (bs : List Bool) {i : Nat} (hi : i < 8) :
    (BitVec.ofNat 8 (packBits bs)).getLsbD i = bs.getD i false := by
  simp only [BitVec.getLsbD_ofNat, testBit_packBits, hi, decide_true, Bool.true_and]

/-- A byte is the packing of at most eight bits exactly when these are its low bits and it has no other. -/
theorem eq_ofNat_packBits_iff {b : Byte} {bs : List Bool} (hlen : bs.length ≤ 8) :
    b = BitVec.ofNat 8 (packBits bs) ↔ b.toNat < 2 ^ bs.length ∧ (List.range bs.length).map b.getLsbD = bs := by
  constructor
  · rintro rfl
    refine ⟨Nat.lt_of_le_of_lt (by rw [BitVec.toNat_ofNat]; exact Nat.mod_le ..) (packBits_lt bs), ?_⟩
    refine List.ext_getElem (by simp) fun i _ hi => ?_
    rw [List.getElem_map, List.getElem_range, getLsbD_ofNat_packBits bs (by omega), List.getD_eq_getElem _ _ hi]
  · rintro ⟨hlt, hbits⟩
    refine BitVec.eq_of_getLsbD_eq fun i hi => ?_
    rw [getLsbD_ofNat_packBits bs hi]
    by_cases h : i < bs.length
    · rw [← hbits]
      simp [h]
    · rw [List.getD_eq_default _ _ (by omega)]
      exact Nat.testBit_lt_two_pow (Nat.lt_of_lt_of_le hlt (Nat.pow_le_pow_right (by omega) (by omega)))

@[simp] theorem length_bytesOfNat (n m : Nat) : (bytesOfNat n m).length = n := by
  induction n generalizing m with
  | zero => rfl
  | succ n ih => simp [bytesOfNat, ih]

/-- `n` bytes hold a number modulo `256 ^ n`. -/
theorem natOfBytes_bytesOfNat (n m : Nat) : natOfBytes (bytesOfNat n m) = m % 256 ^ n := by
  induction n generalizing m with
  | zero => simp [bytesOfNat, natOfBytes, Nat.mod_one]
  | succ n ih => simp [bytesOfNat, natOfBytes, ih, Nat.pow_succ', Nat.mod_mul]

/-- The bytes of the number of a byte list are the list. -/
theorem bytesOfNat_natOfBytes (bs : List Byte) : bytesOfNat bs.length (natOfBytes bs) = bs := by
  induction bs with
  | nil => rfl
  | cons b bs ih =>
    have hb := b.isLt
    have hlow : BitVec.ofNat 8 (b.toNat + 256 * natOfBytes bs) = b := by
      apply BitVec.eq_of_toNat_eq
      rw [BitVec.toNat_ofNat]
      omega
    have hhigh : (b.toNat + 256 * natOfBytes bs) / 256 = natOfBytes bs := by omega
    simp [bytesOfNat, natOfBytes, hlow, hhigh, ih]

/-- The bytes of an axis have room for its bits (log 14). -/
theorem two_pow_le_axisLen (w : Nat) : 2 ^ w ≤ 256 ^ axisLen w := by
  rw [show 256 = 2 ^ 8 from rfl, ← Nat.pow_mul]
  exact Nat.pow_le_pow_right (by omega) (by unfold axisLen; omega)

@[simp] theorem length_axisBytes (w : Nat) (n : Axis) : (axisBytes w n).length = axisLen w := length_bytesOfNat ..

/-- The number of an axis's bytes is its two's complement code. -/
theorem natOfBytes_axisBytes (w : Nat) (n : Axis) : natOfBytes (axisBytes w n) = (BitVec.ofInt w n).toNat := by
  rw [axisBytes, natOfBytes_bytesOfNat, Nat.mod_eq_of_lt (Nat.lt_of_lt_of_le (BitVec.isLt _) (two_pow_le_axisLen w))]

/-- `sext` reads the two's complement code of an integer as it reads the integer. -/
theorem sext_toNat_ofInt (w : Nat) (n : Axis) : sext w (BitVec.ofInt w n).toNat = sext w n := by
  rw [sext, BitVec.ofInt_natCast, BitVec.ofNat_toNat, BitVec.setWidth_eq, sext]

/-- The axis read from bytes that hold a number of `w` bits has these bytes. -/
theorem axisBytes_sext {w : Nat} {bs : List Byte} (hlen : bs.length = axisLen w) (hlt : natOfBytes bs < 2 ^ w) :
    axisBytes w (sext w (natOfBytes bs)) = bs := by
  rw [axisBytes, sext, BitVec.ofInt_toInt, BitVec.ofInt_natCast, BitVec.toNat_ofNat, Nat.mod_eq_of_lt hlt, ← hlen,
    bytesOfNat_natOfBytes]

/-- What is read as an axis: one of `w` bits, from its bytes. -/
theorem takeAxis_eq_ok {w : Nat} {bs rest : List Byte} {n : Axis} :
    takeAxis w bs = .ok (n, rest) ↔ axisFits w n = true ∧ bs = axisBytes w n ++ rest := by
  constructor
  · intro h
    unfold takeAxis at h
    split at h
    · cases h
    next hlen =>
      split at h
      next hlt =>
        cases h
        refine ⟨Machine.axisFits_sext w _, ?_⟩
        rw [axisBytes_sext (by simp; omega) hlt, List.take_append_drop]
      · cases h
  · rintro ⟨hfits, rfl⟩
    have htake : (axisBytes w n ++ rest).take (axisLen w) = axisBytes w n := by
      rw [← length_axisBytes w n, List.take_left]
    have hdrop : (axisBytes w n ++ rest).drop (axisLen w) = rest := by
      rw [← length_axisBytes w n, List.drop_left]
    rw [takeAxis, if_neg (by simp), htake, hdrop, natOfBytes_axisBytes, if_pos (BitVec.isLt _), sext_toNat_ofInt,
      Machine.sext_eq hfits]

/-- What two bytes of booleans make of two axes: the snapshot whose axes and bytes they are (R59, log 14). -/
theorem snapshotOf_eq_ok {l r : Axis} {f g : Byte} {sn : Snapshot} :
    snapshotOf l r f g = .ok sn ↔
      l = sn.axisL ∧ r = sn.axisR ∧ f = BitVec.ofNat 8 (packBits (sn.flags.take 8)) ∧
        g = BitVec.ofNat 8 (packBits (sn.flags.drop 8)) := by
  have hf := f.isLt
  cases sn
  rw [eq_ofNat_packBits_iff (by simp [Snapshot.flags]), eq_ofNat_packBits_iff (by simp [Snapshot.flags]), snapshotOf]
  split <;> simp_all [Snapshot.flags, List.range_succ, and_assoc]

/-- What is read as the booleans of a snapshot: those of one with these axes, from its two bytes. -/
theorem takeFlags_eq_ok {l r : Axis} {bs rest : List Byte} {sn : Snapshot} :
    takeFlags l r bs = .ok (sn, rest) ↔
      l = sn.axisL ∧ r = sn.axisR ∧
        bs = [BitVec.ofNat 8 (packBits (sn.flags.take 8)), BitVec.ofNat 8 (packBits (sn.flags.drop 8))] ++ rest := by
  constructor
  · intro h
    unfold takeFlags at h
    split at h
    next f g tail =>
      cases hsn : snapshotOf l r f g <;> simp only [hsn] at h <;> cases h
      obtain ⟨hl, hr, rfl, rfl⟩ := snapshotOf_eq_ok.1 hsn
      exact ⟨hl, hr, rfl⟩
    · cases h
  · rintro ⟨hl, hr, rfl⟩
    simp [takeFlags, snapshotOf_eq_ok.2 ⟨hl, hr, rfl, rfl⟩]

/-- What is read as a snapshot: one whose axes have `w` bits, from its bytes. -/
theorem takeSnapshot_eq_ok {w : Nat} {bs rest : List Byte} {sn : Snapshot} :
    takeSnapshot w bs = .ok (sn, rest) ↔ sn.fits w = true ∧ bs = snapshotBytes w sn ++ rest := by
  rw [Snapshot.fits, Bool.and_eq_true, snapshotBytes]
  constructor
  · intro h
    unfold takeSnapshot at h
    split at h
    · cases h
    next l bs₁ hl =>
      split at h
      · cases h
      next r bs₂ hr =>
        obtain ⟨rfl, rfl, rfl⟩ := takeFlags_eq_ok.1 h
        obtain ⟨hfitl, rfl⟩ := takeAxis_eq_ok.1 hl
        obtain ⟨hfitr, rfl⟩ := takeAxis_eq_ok.1 hr
        exact ⟨⟨hfitl, hfitr⟩, by simp only [List.append_assoc]⟩
  · rintro ⟨⟨hfitl, hfitr⟩, rfl⟩
    simp only [takeSnapshot, List.append_assoc, takeAxis_eq_ok.2 ⟨hfitl, rfl⟩, takeAxis_eq_ok.2 ⟨hfitr, rfl⟩]
    exact takeFlags_eq_ok.2 ⟨rfl, rfl, rfl⟩

/-- What is read as an operation on a snapshot. -/
theorem decodeSnapshot_eq_ok {w : Nat} {mk : Snapshot → Instr} {bs rest : List Byte} {i : Instr} :
    decodeSnapshot w mk bs = .ok (i, rest) ↔
      ∃ sn, mk sn = i ∧ sn.fits w = true ∧ bs = snapshotBytes w sn ++ rest := by
  constructor
  · intro h
    unfold decodeSnapshot at h
    split at h
    next sn tail hsn =>
      cases h
      exact ⟨sn, rfl, takeSnapshot_eq_ok.1 hsn⟩
    · cases h
  · rintro ⟨sn, rfl, hsn⟩
    simp [decodeSnapshot, takeSnapshot_eq_ok.2 hsn]

/-- What is read as a write outcome: the one whose byte it is (R36, log 14). -/
theorem outcomeOfByte_eq_ok {b : Byte} {o : WriteOutcome} : outcomeOfByte b = .ok o ↔ b = outcomeByte o := by
  unfold outcomeOfByte
  constructor
  · intro h
    split at h
    next hzero => cases h; exact BitVec.eq_of_toNat_eq hzero
    next hzero =>
      split at h
      · cases h
        apply BitVec.eq_of_toNat_eq
        simp only [outcomeByte, BitVec.toNat_ofNat]
        omega
      · cases h
  · rintro rfl
    cases o with
    | ok => rfl
    | fail j =>
      have hj : j.val < 8 := j.isLt
      have hval : (outcomeByte (.fail j)).toNat = j.val + 1 := by
        simp only [outcomeByte, BitVec.toNat_ofNat]
        omega
      simp [hval]

/-- What is read as a SEND: a draw below 255 and a write outcome, from their bytes (R55, R36). -/
theorem decodeSend_eq_ok {bs rest : List Byte} {i : Instr} :
    decodeSend bs = .ok (i, rest) ↔
      ∃ v o, .send v o = i ∧ bs = [BitVec.ofNat 8 v.val, outcomeByte o] ++ rest := by
  constructor
  · intro h
    unfold decodeSend at h
    split at h
    next v b tail =>
      split at h
      next hv =>
        split at h
        next o ho =>
          cases h
          refine ⟨_, o, rfl, ?_⟩
          simp [outcomeOfByte_eq_ok.1 ho]
        · cases h
      · cases h
    · cases h
  · rintro ⟨v, o, rfl, rfl⟩
    have hv : (BitVec.ofNat 8 v.val).toNat = v.val := Machine.drawByte_toNat v
    simp [decodeSend, hv, outcomeOfByte_eq_ok.2 rfl]

/-- What is read as a RECV: a count of at most eight, from its byte (R37). -/
theorem decodeRecv_eq_ok {bs rest : List Byte} {i : Instr} :
    decodeRecv bs = .ok (i, rest) ↔ ∃ k, .recv k = i ∧ k ≤ Config.frameLen ∧ bs = BitVec.ofNat 8 k :: rest := by
  constructor
  · intro h
    unfold decodeRecv at h
    split at h
    next k tail =>
      split at h
      next hk => cases h; exact ⟨k.toNat, rfl, hk, by simp⟩
      · cases h
    · cases h
  · rintro ⟨k, rfl, hk, rfl⟩
    have hval : (BitVec.ofNat 8 k).toNat = k := by
      rw [BitVec.toNat_ofNat]
      exact Nat.mod_eq_of_lt (Nat.lt_of_le_of_lt hk (by decide))
    simp [decodeRecv, hval, hk]

/-- What is read as a DRIVE: an axis of `w` bits, from its bytes. -/
theorem decodeDrive_eq_ok {w : Nat} {bs rest : List Byte} {i : Instr} :
    decodeDrive w bs = .ok (i, rest) ↔ ∃ n, .drive n = i ∧ axisFits w n = true ∧ bs = axisBytes w n ++ rest := by
  constructor
  · intro h
    unfold decodeDrive at h
    split at h
    next n tail hn =>
      cases h
      exact ⟨n, rfl, takeAxis_eq_ok.1 hn⟩
    · cases h
  · rintro ⟨n, rfl, hn⟩
    simp [decodeDrive, takeAxis_eq_ok.2 hn]

/-- What is read as a PAIR: two bits, from a byte that has no other (log 14). -/
theorem decodePair_eq_ok {bs rest : List Byte} {i : Instr} :
    decodePair bs = .ok (i, rest) ↔
      ∃ m0 m1, .pair m0 m1 = i ∧ bs = BitVec.ofNat 8 (packBits [m0, m1]) :: rest := by
  constructor
  · intro h
    unfold decodePair at h
    split at h
    next m tail =>
      split at h
      next hm =>
        cases h
        exact ⟨_, _, rfl, congrArg (· :: rest) ((eq_ofNat_packBits_iff (by simp)).2 ⟨hm, rfl⟩)⟩
      · cases h
    · cases h
  · rintro ⟨m0, m1, rfl, rfl⟩
    cases m0 <;> cases m1 <;> rfl

/-- What is read as an ENC.RAIL: a snapshot whose axes have `w` bits, then a byte of one bit (log 14). -/
theorem decodeRail_eq_ok {w : Nat} {bs rest : List Byte} {i : Instr} :
    decodeRail w bs = .ok (i, rest) ↔
      ∃ sn l, .encRail sn l = i ∧ sn.fits w = true ∧
        bs = snapshotBytes w sn ++ BitVec.ofNat 8 (packBits [l]) :: rest := by
  constructor
  · intro h
    unfold decodeRail at h
    split at h
    next sn l tail hsn =>
      split at h
      next hl =>
        cases h
        obtain ⟨hfits, rfl⟩ := takeSnapshot_eq_ok.1 hsn
        have hbyte : l = BitVec.ofNat 8 (packBits [l.getLsbD 0]) := (eq_ofNat_packBits_iff (by simp)).2 ⟨hl, rfl⟩
        exact ⟨sn, _, rfl, hfits, by rw [← hbyte]⟩
      · cases h
    · cases h
    · cases h
  · rintro ⟨sn, l, rfl, hsn⟩
    rw [decodeRail, takeSnapshot_eq_ok.2 hsn]
    cases l <;> rfl

/-- What is read as a DECODE: any eight bytes, in offset order (R56). -/
theorem decodeReply_eq_ok {bs rest : List Byte} {i : Instr} :
    decodeReply bs = .ok (i, rest) ↔ ∃ r : Frame, .decode r = i ∧ bs = r.toList ++ rest := by
  constructor
  · intro h
    unfold decodeReply at h
    split at h
    · cases h
      exact ⟨_, rfl, rfl⟩
    · cases h
  · rintro ⟨r, rfl, rfl⟩
    rfl

/-- What is read as an operation of a row: a well-formed one, from its operand bytes. -/
theorem decodeOperands_eq_ok {w : Nat} {r : Row} {bs rest : List Byte} {i : Instr} :
    decodeOperands w r bs = .ok (i, rest) ↔ i.row = r ∧ i.wellFormed w = true ∧ bs = operandBytes w i ++ rest := by
  constructor
  · intro h
    cases r with
    | cycleStart | encode | encLdrive | encRdrive | encAuger | encToggle =>
      obtain ⟨sn, rfl, hsn⟩ := decodeSnapshot_eq_ok.1 h
      exact ⟨rfl, hsn⟩
    | send => obtain ⟨v, o, rfl, rfl⟩ := decodeSend_eq_ok.1 h; exact ⟨rfl, rfl, rfl⟩
    | recv => obtain ⟨k, rfl, hk, rfl⟩ := decodeRecv_eq_ok.1 h; exact ⟨rfl, decide_eq_true hk, rfl⟩
    | verify | deliver | retry | encZero => cases h; exact ⟨rfl, rfl, rfl⟩
    | drive => obtain ⟨n, rfl, hn⟩ := decodeDrive_eq_ok.1 h; exact ⟨rfl, hn⟩
    | pair => obtain ⟨m0, m1, rfl, rfl⟩ := decodePair_eq_ok.1 h; exact ⟨rfl, rfl, rfl⟩
    | encRail =>
      obtain ⟨sn, l, rfl, hfits, rfl⟩ := decodeRail_eq_ok.1 h
      exact ⟨rfl, hfits, by simp [operandBytes]⟩
    | decode => obtain ⟨r, rfl, rfl⟩ := decodeReply_eq_ok.1 h; exact ⟨rfl, rfl, rfl⟩
  · rintro ⟨rfl, hwf, rfl⟩
    cases i with
    | cycleStart sn | encode sn | encLdrive sn | encRdrive sn | encAuger sn | encToggle sn =>
      exact decodeSnapshot_eq_ok.2 ⟨sn, rfl, hwf, rfl⟩
    | send v o => exact decodeSend_eq_ok.2 ⟨v, o, rfl, rfl⟩
    | recv k => exact decodeRecv_eq_ok.2 ⟨k, rfl, of_decide_eq_true hwf, rfl⟩
    | verify | deliver | retry | encZero => rfl
    | drive n => exact decodeDrive_eq_ok.2 ⟨n, rfl, hwf, rfl⟩
    | pair m0 m1 => exact decodePair_eq_ok.2 ⟨m0, m1, rfl, rfl⟩
    | encRail sn l => exact decodeRail_eq_ok.2 ⟨sn, l, rfl, hwf, by simp [operandBytes]⟩
    | decode r => exact decodeReply_eq_ok.2 ⟨r, rfl, rfl⟩

/-- Only transitions are dispatched, each by its code of R63's table or, where `FULL` is not examined, by that with the
bit `FULL` set. -/
theorem decodeDispatch_ok {w : BitVec 4} {r : Row} (h : decodeDispatch w = .ok r) :
    r.isTransition = true ∧
      (w.toNat = r.code ∨ (w.toNat = r.code + 1 ∧ r ∈ [Row.cycleStart, .send, .deliver, .retry])) := by
  unfold decodeDispatch at h
  split at h <;> cases h <;> simp_all [Row.isTransition, Row.code]

/-- A first byte selects a row by the row's code, or by the code with the bit `FULL` that R63 does not examine set. -/
theorem decodeRow_ok {b : Byte} {r : Row} (h : decodeRow b = .ok r) :
    b.toNat = r.code ∨ (b.toNat = r.code + 1 ∧ r ∈ [Row.cycleStart, .send, .deliver, .retry]) := by
  unfold decodeRow at h
  split at h
  next hlt =>
    have hval : (BitVec.ofNat 4 b.toNat).toNat = b.toNat := by
      rw [BitVec.toNat_ofNat]
      omega
    have hcode := (decodeDispatch_ok h).2
    rwa [hval] at hcode
  · split at h <;> cases h <;> simp_all [Row.code]

/-- A row's code selects the row. -/
theorem decodeRow_code (r : Row) : decodeRow (BitVec.ofNat 8 r.code) = .ok r := by
  cases r <;> rfl

/-- What is decoded: a well-formed operation of the row the first byte selects, from its operand bytes. -/
theorem decodeInstr_eq_ok {w : Nat} {b : Byte} {bs rest : List Byte} {i : Instr} :
    decodeInstr w (b :: bs) = .ok (i, rest) ↔
      decodeRow b = .ok i.row ∧ i.wellFormed w = true ∧ bs = operandBytes w i ++ rest := by
  constructor
  · intro h
    unfold decodeInstr at h
    cases hrow : decodeRow b <;> simp only [hrow] at h
    case error => cases h
    case ok r =>
      obtain ⟨rfl, hoperands⟩ := decodeOperands_eq_ok.1 h
      exact ⟨rfl, hoperands⟩
  · rintro ⟨hrow, hoperands⟩
    simp only [decodeInstr, hrow]
    exact decodeOperands_eq_ok.2 ⟨rfl, hoperands⟩

/-- Settles O49: an operation's code is its row's code, which selects the row, and its operand bytes. -/
theorem decodeInvertsEncode : Obligations.DecodeInvertsEncode :=
  fun _ i _ hwf => decodeInstr_eq_ok.2 ⟨decodeRow_code i.row, hwf, rfl⟩

/-- Settles O50: the bytes after the first are the operation's operand bytes, and the first selects its row. -/
theorem encodeInvertsDecode : Obligations.EncodeInvertsDecode := by
  intro w b bs rest i h
  obtain ⟨hrow, hwf, hbytes⟩ := decodeInstr_eq_ok.1 h
  exact ⟨hwf, hbytes, decodeRow_ok hrow⟩

end Sys2Proof

/-! What the block never sends and never accepts (R55, R58, R64, R65). -/

namespace Sys2Proof.Machine

/-- `RAIL` bits 0 and 1 are both set only by DUMP_G and RAIL_H, each driving one of them (R58, R76). -/
theorem railByte_shared_bits {sn : Snapshot} {l : Bool} (h0 : (railByte sn l).getLsbD 0 = true)
    (h1 : (railByte sn l).getLsbD 1 = true) :
    (sn.dumpLower = true ∧ sn.dumpTilt = false ∧ sn.railLeft = true ∧ sn.railRight = false) ∨
      (sn.dumpTilt = true ∧ sn.dumpLower = false ∧ sn.railRight = true ∧ sn.railLeft = false) := by
  obtain ⟨hbit0, hbit1, -⟩ := railByte_bits sn l
  rw [hbit0, pairOut_fst, pairOut_fst] at h0
  rw [hbit1, pairOut_snd, pairOut_snd] at h1
  cases hl : sn.dumpLower <;> cases ht : sn.dumpTilt <;> simp_all

/-- Settles O13: CYCLE_START stores ENCODE's bytes, each with the bits of its field only and no two of one group; SEND
stores a draw. -/
theorem illegalCommandsAreNeverGenerated : Obligations.IllegalCommandsAreNeverGenerated := by
  refine ⟨fun s t sn h => ?_, fun s t v o h => ?_⟩
  · obtain ⟨-, rfl⟩ := execCycleStart_next.1 h
    rw [afterCycleStart_pkt]
    obtain ⟨hright, hleft⟩ := augerByte_exclusive sn
    obtain ⟨-, -, -, -, hauger⟩ := augerByte_bits sn
    obtain ⟨-, -, -, -, -, hrail⟩ := railByte_bits sn (latchNext s.latch s.prev sn.toggleBtn)
    have hvert := railByte_exclusive sn (latchNext s.latch s.prev sn.toggleBtn)
    rw [← Bool.not_eq_true, Bool.and_eq_true] at hright hleft hvert
    exact ⟨driveByte_le .., driveByte_le .., hright, hleft, hauger, hvert, hrail, rfl, rfl, rfl,
      fun ⟨h0, h1⟩ => railByte_shared_bits h0 h1⟩
  · obtain ⟨-, rfl⟩ := execSend_next.1 h
    exact drawByte_ne v

/-- Settles O23: the byte a reply is compared with is a draw's, never 255 (R55), so the reply differs. -/
theorem replyOf255NeverMatches : Obligations.ReplyOf255NeverMatches := by
  intro s hs hst hfull hreply
  have hsent : s.pkt.b7 ≠ 255 := hs.verification_ne (by rw [hst]; rfl)
  have hdiffers : s.rxbuf.b7 ≠ s.pkt.b7 := by rw [hreply]; exact hsent.symm
  exact execVerify_next.2 ⟨⟨hst, hfull⟩, by rw [if_neg hdiffers]⟩

end Sys2Proof.Machine

/-! Dispatch (R63, R68, log 6 to 9, 12, 13): the operation the dispatch word selects, its operands, and the stop of a
transition that is not enabled. -/

namespace Sys2Proof.Machine

/-- `FULL` says that a whole reply is held (R20 a). -/
theorem full_iff (s : State) : full s = true ↔ s.rxcnt = 8 := beq_iff_eq

/-- Settles O25: each transition tests its enabling condition first (log 12). -/
theorem transitionsFaultWhenNotEnabled : Obligations.TransitionsFaultWhenNotEnabled := fun s =>
  ⟨fun h _ => if_neg h, fun h _ _ => if_neg h, fun h _ => if_neg h,
    fun h => if_neg fun ⟨hst, hfull⟩ => h ⟨hst, (full_iff s).1 hfull⟩, fun h => if_neg h, fun h => if_neg h⟩

/-- `W` = `11xx` stands for no state (R63, U19). -/
theorem decodeDispatch_unreachable :
    ∀ w : BitVec 4, 12 ≤ w.toNat → decodeDispatch w = .error .unreachableState := by decide

/-- Settles O31: the table by `ST` and `FULL`, and what it has besides. -/
theorem dispatchWordSelectsOperation : Obligations.DispatchWordSelectsOperation :=
  ⟨decodeDispatch_dispatchWord, decodeDispatch_unreachable, fun _ _ h => (decodeDispatch_ok h).1⟩

section

variable {s u : State} {es : List EnvInput}

/-- The block's turn consumes an entry `turn` at the head of the script and nothing else (log 6). -/
theorem takeTurn_eq (h : s.script = .turn :: es ∨ (s.script = es ∧ es.head? ≠ some .turn)) :
    takeTurn s = { s with script := es } := by
  obtain h | ⟨rfl, hhead⟩ := h
  · rw [takeTurn, h, afterTurn_turn]
  · exact takeTurn_other hhead

/-- SEND's answers, both in the script. -/
theorem sendAnswer_draw_wr {v : Draw} {o : WriteOutcome} (h : s.script = .draw v :: .wr o :: es) :
    sendAnswer s = (v, o, { s with script := es }) := by
  simp [sendAnswer, h]

/-- A scripted draw without an outcome means `WR ok` (R68). -/
theorem sendAnswer_draw {v : Draw} (h : s.script = .draw v :: es) (hno : ∀ o, es.head? ≠ some (.wr o)) :
    sendAnswer s = (v, .ok, { s with script := es }) := by
  cases es with
  | nil => simp [sendAnswer, h]
  | cons e rest =>
    cases e with
    | wr o => exact absurd rfl (hno o)
    | offer | arrive | reset | draw | read | turn => simp [sendAnswer, h]

/-- An outcome in the script without a draw: the draw is a free value (log 7). -/
theorem sendAnswer_wr {o : WriteOutcome} (h : s.script = .wr o :: es) :
    sendAnswer s = (Config.freeDraw s.freeCount, o, { s with script := es, freeCount := s.freeCount + 1 }) := by
  simp [sendAnswer, h]

/-- No answer in the script: both are free values, and the script stays as it is (log 7, 8). -/
theorem sendAnswer_free (hdraw : ∀ v, s.script.head? ≠ some (.draw v)) (hwr : ∀ o, s.script.head? ≠ some (.wr o)) :
    (sendAnswer s).2.2 = { s with freeCount := s.freeCount + 1 } := by
  unfold sendAnswer
  split <;> simp_all

/-- RECV's answer in the script. -/
theorem readAnswer_read {k : Nat} (h : s.script = .read k :: es) : readAnswer s = (k, { s with script := es }) := by
  simp [readAnswer, h]

/-- No answer in the script: the count is a free value, and the script stays as it is (log 9). -/
theorem readAnswer_free (h : ∀ k, s.script.head? ≠ some (.read k)) :
    (readAnswer s).2 = { s with freeCount := s.freeCount + 1 } := by
  unfold readAnswer
  split <;> simp_all

/-- On the block's turn a step runs what is fetched once the turn is taken. -/
theorem step_fetch {t : State} {i : Instr} (hturn : blockTurn s = true) (hu : takeTurn s = u) (h : fetch u = .run i t) :
    step s = exec i t :=
  step_fetched hturn (hu ▸ h)

/-- CYCLE_START runs with the snapshot offered, which it takes (R91). -/
theorem fetch_cycleStart {sn : Snapshot} (hrow : decodeDispatch (dispatchWord s) = .ok .cycleStart)
    (hoffer : s.offer = some sn) : fetch s = .run (.cycleStart sn) { s with offer := none } := by
  simp only [fetch, hrow, hoffer]

/-- SEND runs with its answers, in the state they leave (R92). -/
theorem fetch_send (hrow : decodeDispatch (dispatchWord s) = .ok .send) :
    fetch s = .run (.send (sendAnswer s).1 (sendAnswer s).2.1) (sendAnswer s).2.2 := by
  simp only [fetch, hrow]

/-- RECV runs with its answer, in the state that leaves (R93). -/
theorem fetch_recv (hrow : decodeDispatch (dispatchWord s) = .ok .recv) :
    fetch s = .run (.recv (readAnswer s).1) (readAnswer s).2 := by
  simp only [fetch, hrow]

/-- The transitions without operands run in the state itself (R94 to R96). -/
theorem fetch_verify (hrow : decodeDispatch (dispatchWord s) = .ok .verify) : fetch s = .run .verify s := by
  simp only [fetch, hrow]

theorem fetch_deliver (hrow : decodeDispatch (dispatchWord s) = .ok .deliver) : fetch s = .run .deliver s := by
  simp only [fetch, hrow]

theorem fetch_retry (hrow : decodeDispatch (dispatchWord s) = .ok .retry) : fetch s = .run .retry s := by
  simp only [fetch, hrow]

end

/-- Settles O32: on the block's turn a step runs what is fetched once the turn is taken, and the answers are those of the
script as it then is. -/
theorem stepRunsSelectedOperation : Obligations.StepRunsSelectedOperation := by
  refine ⟨fun s i hinvoke => by simp only [step, hinvoke], ?_⟩
  rintro s _ es hturn hscript rfl
  have hrun {i : Instr} {t : State} : fetch { s with script := es } = .run i t → step s = exec i t :=
    step_fetch hturn (takeTurn_eq hscript)
  refine ⟨fun hrow sn hoffer => hrun (fetch_cycleStart hrow hoffer), fun hrow => ?_, fun hrow => ?_,
    fun hrow => hrun (fetch_verify hrow), fun hrow => hrun (fetch_deliver hrow), fun hrow => hrun (fetch_retry hrow)⟩
  · have hsend := hrun (fetch_send hrow)
    refine ⟨fun v o rest hes => ?_, fun v rest hes hno => ?_, fun o rest hes => ?_, fun hdraw hwr => ?_⟩
    · rw [hsend, sendAnswer_draw_wr hes]
    · rw [hsend, sendAnswer_draw hes hno]
    · exact ⟨_, by rw [hsend, sendAnswer_wr hes]⟩
    · exact ⟨_, _, by rw [hsend, sendAnswer_free hdraw hwr]⟩
  · have hrecv := hrun (fetch_recv hrow)
    refine ⟨fun k rest hes => ?_, fun hread => ?_⟩
    · rw [hrecv, readAnswer_read hes]
    · exact ⟨_, by rw [hrecv, readAnswer_free hread]⟩

/-- Settles O48: each code is evaluated by the decoder. -/
theorem knownCodesDecode : Obligations.KnownCodesDecode :=
  ⟨rfl, rfl, rfl, rfl, rfl, rfl, rfl, rfl, rfl, rfl, rfl⟩

end Sys2Proof.Machine

/-! The packing functions (R70 to R79): for each one, the state its invocation leads to, said once. -/

namespace Sys2Proof.Machine

theorem exec_drive (n : Axis) (s : State) :
    exec (.drive n) s = .next { s with ret := some (.byte (driveByte s.params n)) } := rfl

theorem exec_encLdrive (sn : Snapshot) (s : State) :
    exec (.encLdrive sn) s = .next { s with ret := some (.byte (driveByte s.params sn.axisL)) } := rfl

theorem exec_encRdrive (sn : Snapshot) (s : State) :
    exec (.encRdrive sn) s = .next { s with ret := some (.byte (driveByte s.params sn.axisR)) } := rfl

theorem exec_pair (m0 m1 : Bool) (s : State) :
    exec (.pair m0 m1) s = .next { s with ret := some (.pair (m0 && !m1) (m1 && !m0)) } := rfl

theorem exec_encAuger (sn : Snapshot) (s : State) :
    exec (.encAuger sn) s = .next { s with ret := some (.byte (augerByte sn)) } := rfl

theorem exec_encRail (sn : Snapshot) (l : Bool) (s : State) :
    exec (.encRail sn l) s = .next { s with ret := some (.byte (railByte sn l)) } := rfl

theorem exec_encToggle (sn : Snapshot) (s : State) :
    exec (.encToggle sn) s = .next { s with
      latch := latchNext s.latch s.prev sn.toggleBtn, prev := sn.toggleBtn,
      ret := some (.latch (latchNext s.latch s.prev sn.toggleBtn)) } := rfl

theorem exec_encode (sn : Snapshot) (s : State) :
    exec (.encode sn) s = .next { s with
      latch := latchNext s.latch s.prev sn.toggleBtn, prev := sn.toggleBtn,
      ret := some (.command (encodeIn sn s)) } := rfl

/-- Settles O9: the constant of the three fields is 0. -/
theorem zeroFieldsAreZero : Obligations.ZeroFieldsAreZero := fun _ => rfl

end Sys2Proof.Machine

/-! DRIVE (R71, R72, R78): the rounded offset by its thresholds; clamping only cuts it at 10, so that the laws of the value
are those of the offset. -/

namespace Sys2Proof.Machine

variable {one : Nat}

/-- The offset of a nonnegative axis reaches `k` at `20 n = (2k - 1) S`, where the tie rounds away from zero (R71). -/
theorem le_driveOffset_natCast_iff (hone : 1 ≤ one) (m k : Nat) :
    (k : Int) ≤ driveOffset one m ↔ (2 * k - 1 : Int) * one ≤ 20 * m := by
  have hfloor : k ≤ (20 * m + one) / (2 * one) ↔ k * (2 * one) ≤ 20 * m + one :=
    Nat.le_div_iff_mul_le (by omega)
  have hoffset : driveOffset one m = ((20 * m + one) / (2 * one) : Nat) := by simp [driveOffset]
  rw [hoffset, Int.ofNat_le, hfloor]
  zify
  constructor <;> intro h <;> linarith

/-- The offset is odd: the sign is taken off before the rounding and put back after it (R71). -/
theorem driveOffset_neg (one : Nat) (n : Int) : driveOffset one (-n) = -driveOffset one n := by
  have hzero : one / (2 * one) = 0 := by
    rcases Nat.eq_zero_or_pos one with rfl | hpos
    · rfl
    · exact Nat.div_eq_of_lt (by omega)
  rcases lt_trichotomy n 0 with hn | rfl | hn
  · simp [driveOffset, hn.le, not_le.2 hn]
  · simp [driveOffset, hzero]
  · simp [driveOffset, hn.le, not_le.2 hn]

/-- The threshold law at positive offsets, for an axis of either sign (R71). -/
theorem le_driveOffset_iff_of_pos (hone : 1 ≤ one) (n : Int) {k : Nat} (hk : 1 ≤ k) :
    (k : Int) ≤ driveOffset one n ↔ (2 * k - 1 : Int) * one ≤ 20 * n := by
  obtain ⟨m, rfl | rfl⟩ := n.eq_nat_or_neg
  · exact le_driveOffset_natCast_iff hone m k
  · have hoffset : 0 ≤ driveOffset one m := (le_driveOffset_natCast_iff hone m 0).2 (by push_cast; omega)
    have hthreshold : 0 < (2 * k - 1 : Int) * one := by
      apply Int.mul_pos <;> omega
    rw [driveOffset_neg]
    constructor <;> intro h <;> omega

/-- The rounded offset is monotone (R71). -/
theorem driveOffset_mono (hone : 1 ≤ one) : Monotone (driveOffset one) := by
  have hpos {a b : Int} (hab : a ≤ b) (ha : 0 < driveOffset one a) : driveOffset one a ≤ driveOffset one b := by
    obtain ⟨k, hk⟩ := Int.eq_ofNat_of_zero_le ha.le
    rw [hk]
    have hreached := (le_driveOffset_iff_of_pos hone a (by omega)).1 hk.ge
    exact (le_driveOffset_iff_of_pos hone b (by omega)).2 (by omega)
  intro a b hab
  by_cases ha : 0 < driveOffset one a
  · exact hpos hab ha
  · by_cases hb : 0 ≤ driveOffset one b
    · omega
    · have hneg := hpos (neg_le_neg hab) (by rw [driveOffset_neg]; omega)
      rw [driveOffset_neg, driveOffset_neg] at hneg
      omega

theorem driveValue_eq_clamp (one : Nat) (n : Int) : driveValue one n = max 0 (min 20 (10 + driveOffset one n)) := rfl

/-- The drive value is odd-symmetric about 10 (R71). -/
theorem driveValue_neg (one : Nat) (n : Int) : driveValue one (-n) = 20 - driveValue one n := by
  rw [driveValue_eq_clamp, driveValue_eq_clamp, driveOffset_neg]
  omega

theorem driveValue_mono (hone : 1 ≤ one) : Monotone (driveValue one) := by
  intro a b hab
  have hoffset := driveOffset_mono hone hab
  rw [driveValue_eq_clamp, driveValue_eq_clamp]
  omega

/-- The threshold law above the centre (R71). -/
theorem le_driveValue_iff (hone : 1 ≤ one) (n : Int) {k : Nat} (hk : 1 ≤ k) (hk' : k ≤ 10) :
    (10 + k : Int) ≤ driveValue one n ↔ (2 * k - 1 : Int) * one ≤ 20 * n := by
  rw [← le_driveOffset_iff_of_pos hone n hk, driveValue_eq_clamp]
  omega

/-- The threshold law below the centre (R71): the mirror image of the one above. -/
theorem driveValue_le_iff (hone : 1 ≤ one) (n : Int) {k : Nat} (hk : 1 ≤ k) (hk' : k ≤ 10) :
    driveValue one n ≤ (10 - k : Int) ↔ 20 * n ≤ -((2 * k - 1 : Int) * one) := by
  have hmirror := le_driveValue_iff hone (-n) hk hk'
  rw [driveValue_neg] at hmirror
  omega

/-- The neutral band: neither the first threshold above the centre nor the first below it is reached (R71). -/
theorem driveValue_eq_ten_iff (hone : 1 ≤ one) (n : Int) :
    driveValue one n = 10 ↔ -(one : Int) < 20 * n ∧ 20 * n < one := by
  have habove := le_driveValue_iff hone n (k := 1) (by omega) (by omega)
  have hbelow := driveValue_le_iff hone n (k := 1) (by omega) (by omega)
  omega

/-- From `AXIS_ONE` up the value is the upper end (R71). -/
theorem driveValue_eq_twenty (hone : 1 ≤ one) {n : Int} (hn : (one : Int) ≤ n) : driveValue one n = 20 := by
  have hlast := le_driveValue_iff hone n (k := 10) (by omega) (by omega)
  have hrange := driveValue_range one n
  omega

/-- From `-AXIS_ONE` down the value is the lower end (R71). -/
theorem driveValue_eq_zero (hone : 1 ≤ one) {n : Int} (hn : n ≤ -(one : Int)) : driveValue one n = 0 := by
  have hmirror := driveValue_eq_twenty hone (n := -n) (by omega)
  rw [driveValue_neg] at hmirror
  omega

/-- Settles O2, from the symmetry and the monotonicity of the rounded offset. -/
theorem driveIsMonotoneAndOddSymmetric : Obligations.DriveIsMonotoneAndOddSymmetric := fun one hone =>
  ⟨fun _ _ hab => driveValue_mono hone hab, driveValue_neg one, (driveValue_eq_ten_iff hone 0).2 (by omega),
    driveValue_eq_twenty hone le_rfl, driveValue_eq_zero hone le_rfl⟩

/-- Settles O1: an axis that fits is read as it is, and the byte returned is its drive value. -/
theorem driveReturnsClampedRoundedValue : Obligations.DriveReturnsClampedRoundedValue := by
  intro s n hone hfits
  have hbyte : ((driveByte s.params n).toNat : Int) = driveValue s.params.axisOne n := by
    rw [driveByte_toNat, sext_eq hfits]
  refine ⟨driveByte s.params n, exec_drive n s, driveByte_le s.params n, hbyte, fun k hk hk' => ?_, fun k hk hk' => ?_,
    ?_, fun hn => ?_, fun hn => ?_⟩
  · rw [← le_driveValue_iff hone n hk hk', ← hbyte]
    omega
  · rw [← driveValue_le_iff hone n hk hk', ← hbyte]
    omega
  · rw [← driveValue_eq_ten_iff hone n, ← hbyte]
    omega
  · have hend := driveValue_eq_twenty hone hn
    omega
  · have hend := driveValue_eq_zero hone hn
    omega

/-- Settles O3: each drive field is the drive byte of its axis, which reads nothing of the state but the parameters. -/
theorem driveFieldsAreDriveOfTheirOwnAxis : Obligations.DriveFieldsAreDriveOfTheirOwnAxis := by
  intro s s' sn hparams
  have hpattern (n : Axis) : driveByte s.params n &&& 0xE0 = 0 := drivePattern_of_le _ (driveByte_le ..)
  exact ⟨driveByte s.params sn.axisL, driveByte s.params sn.axisR, exec_encLdrive sn s, by rw [hparams, exec_drive],
    exec_encRdrive sn s, by rw [hparams, exec_drive], driveByte_le .., driveByte_le .., hpattern _, hpattern _⟩

end Sys2Proof.Machine

/-! The control groups (R73, R74, R76): PAIR drives a group one way, the other way or not at all. -/

namespace Sys2Proof.Machine

/-- What PAIR can return (R73). -/
theorem pairOut_cases (m0 m1 : Bool) :
    pairOut m0 m1 = (false, false) ∨ pairOut m0 m1 = (true, false) ∨ pairOut m0 m1 = (false, true) := by
  cases m0 <;> cases m1 <;> simp [pairOut]

/-- The nine values of `AUGER_DRIVE`: three for each group (R52). -/
theorem augerByte_mem (sn : Snapshot) :
    augerByte sn ∈ ([0x00, 0x01, 0x02, 0x04, 0x05, 0x06, 0x08, 0x09, 0x0A] : List Byte) := by
  obtain hr | hr | hr := pairOut_cases sn.augRFwd sn.augRRev <;>
    obtain hl | hl | hl := pairOut_cases sn.augLFwd sn.augLRev <;>
    rw [augerByte, hr, hl] <;> decide

/-- `RAIL` as a weighted sum (R53, R76). -/
theorem railByte_toNat (sn : Snapshot) (l : Bool) :
    (railByte sn l).toNat = ((sn.dumpLower && !sn.dumpTilt) || (sn.railRight && !sn.railLeft)).toNat
      + 2 * ((sn.dumpTilt && !sn.dumpLower) || (sn.railLeft && !sn.railRight)).toNat
      + 4 * (sn.railUp && !sn.railDown).toNat + 8 * (sn.railDown && !sn.railUp).toNat + 16 * l.toNat :=
  (packBits_five ..).1

/-- `RAIL` is at most 0x1B: RAIL_V, which has bits 2 and 3 to itself, sets at most one of them (R76). -/
theorem railByte_le (sn : Snapshot) (l : Bool) : (railByte sn l).toNat ≤ 0x1B := by
  have hvert : 4 * (pairOut sn.railUp sn.railDown).1.toNat + 8 * (pairOut sn.railUp sn.railDown).2.toNat ≤ 8 := by
    obtain h | h | h := pairOut_cases sn.railUp sn.railDown <;> simp [h]
  have hp := Bool.toNat_le ((sn.dumpLower && !sn.dumpTilt) || (sn.railRight && !sn.railLeft))
  have hq := Bool.toNat_le ((sn.dumpTilt && !sn.dumpLower) || (sn.railLeft && !sn.railRight))
  have hl := Bool.toNat_le l
  rw [pairOut_fst, pairOut_snd] at hvert
  rw [railByte_toNat]
  omega

/-- Settles O4: PAIR's truth table, and each group's outputs at the bits of `AUGER_DRIVE` and `RAIL` that are its own. -/
theorem controlGroupsObeyPairPolicy : Obligations.ControlGroupsObeyPairPolicy := by
  refine ⟨fun m0 m1 s => ⟨_, _, exec_pair m0 m1 s, by simp, by simp, ?_⟩, fun sn l s => ?_⟩
  · rw [← Bool.and_eq_true, Bool.not_eq_true]
    exact pairOut_exclusive m0 m1
  · obtain ⟨hr0, hr1, hl0, hl1, -⟩ := augerByte_bits sn
    obtain ⟨hp, hq, hv0, hv1, -⟩ := railByte_bits sn l
    exact ⟨augerByte sn, railByte sn l, exec_encAuger sn s, exec_encRail sn l s, hr0, hr1, hl0, hl1, hp, hq, hv0, hv1⟩

/-- Settles O5: the byte's value is the weighted sum of its four bits, which PAIR limits to nine values. -/
theorem augerByteIsWeightedPairs : Obligations.AugerByteIsWeightedPairs := fun s sn =>
  ⟨augerByte sn, exec_encAuger sn s, (packBits_four ..).1, augerByte_mem sn⟩

/-- Settles O8, from the weighted sum, its bound and the exclusion of RAIL_V's two bits. -/
theorem railByteIsWeightedGroupsAndLatch : Obligations.RailByteIsWeightedGroupsAndLatch := by
  refine fun s sn l => ⟨railByte sn l, exec_encRail sn l s, railByte_toNat sn l, railByte_le sn l, ?_⟩
  rw [← Bool.and_eq_true, Bool.not_eq_true]
  exact railByte_exclusive sn l

end Sys2Proof.Machine

/-! The latch (R75, R79, R82): it flips on a rising edge, and the level stored leaves no second edge to a button held. -/

namespace Sys2Proof.Machine

/-- The latch keeps its value unless the button has just been pressed (R75). -/
theorem latchNext_eq_self_iff (latch prev btn : Bool) :
    latchNext latch prev btn = latch ↔ ¬ (btn = true ∧ prev = false) := by
  cases prev with
  | true => simp [latchNext_held]
  | false =>
    cases btn with
    | true => simp [latchNext_rising]
    | false => simp [latchNext_released]

/-- With the button pressed, the latch keeps its value exactly when the button was held before (R75). -/
theorem latchNext_pressed_eq_self_iff (latch prev : Bool) : latchNext latch prev true = latch ↔ prev = true := by
  simp [latchNext_eq_self_iff]

/-- Settles O6: ENC.TOGGLE writes the next latch and the level, and the next latch differs on a rising edge only. -/
theorem toggleFlipsOnRisingEdge : Obligations.ToggleFlipsOnRisingEdge := fun s sn =>
  ⟨_, exec_encToggle sn s, rfl, latchNext_eq_self_iff ..⟩

/-- Settles O7, by induction on the snapshots: the first one stores the level, and every later one, if there is any, finds
the button held and so keeps the latch. -/
theorem heldButtonFlipsLatchOnce : Obligations.HeldButtonFlipsLatchOnce := by
  intro s sns hne hpressed
  induction sns generalizing s with
  | nil => exact absurd rfl hne
  | cons sn sns ih =>
    obtain ⟨hbtn, hrest⟩ := List.forall_mem_cons.1 hpressed
    rw [List.map_cons, execAll, exec_encToggle, hbtn]
    cases sns with
    | nil => exact ⟨_, rfl, rfl, latchNext_pressed_eq_self_iff ..⟩
    | cons sn' sns =>
      obtain ⟨t, hrun, hprev, hlatch⟩ := ih _ (List.cons_ne_nil _ _) hrest
      refine ⟨t, hrun, hprev, ?_⟩
      rw [hlatch.2 rfl]
      exact latchNext_pressed_eq_self_iff ..

/-- Settles O10: ENCODE's bytes are its parts' bytes by definition. -/
theorem encodeComposesItsParts : Obligations.EncodeComposesItsParts := fun s sn =>
  ⟨encodeIn sn s, latchNext s.latch s.prev sn.toggleBtn, exec_encode sn s, exec_encToggle sn s, exec_encLdrive sn s,
    exec_encRdrive sn s, exec_encAuger sn s, exec_encRail sn _ s, zeroFieldsAreZero s⟩

/-- ENCODE's value reads the latch state and the parameters only (R70, R81). -/
theorem encodeIn_congr {s t : State} (hlatch : s.latch = t.latch) (hprev : s.prev = t.prev)
    (hparams : s.params = t.params) (sn : Snapshot) : encodeIn sn s = encodeIn sn t := by
  rw [encodeIn, encodeIn, hlatch, hprev, hparams]

/-- Settles O11: the bytes by `encodeIn_congr`, the next latch because it reads LATCH, PREV and the button. -/
theorem encodeDependsOnSnapshotAndLatchOnly : Obligations.EncodeDependsOnSnapshotAndLatchOnly := by
  intro s s' sn hlatch hprev hparams
  refine ⟨_, _, exec_encode sn s, exec_encode sn s', ?_, ?_, rfl⟩
  · rw [encodeIn_congr hlatch hprev hparams]
  · rw [hlatch, hprev]

/-- Settles O12: the first encoding stores the level, so the second sees no edge, and the latch ENCODE reads is then the one
it wrote. -/
theorem secondEncodingRepeatsTheCommand : Obligations.SecondEncodingRepeatsTheCommand := by
  intro s sn hbtn
  refine ⟨_, _, encodeIn sn s, exec_encode sn s, exec_encode sn _, rfl, ?_, ?_⟩
  · simp [encodeIn, hbtn, latchNext_held]
  · rw [hbtn]
    exact latchNext_pressed_eq_self_iff ..

end Sys2Proof.Machine

/-! What each transition of the exchange does when it is enabled (R91 to R96): the whole next state, through the one that
the laws of `exec` name. -/

namespace Sys2Proof.Machine

section

/-! What `exec` answers for an enabled transition, as an equation. -/

variable {s : State}

theorem exec_cycleStart_of_idle (h : s.st = .idle) (sn : Snapshot) :
    exec (.cycleStart sn) s = .next (afterCycleStart sn s) :=
  execCycleStart_next.2 ⟨h, rfl⟩

theorem exec_send_of_sending (h : s.st = .sending) (v : Draw) (o : WriteOutcome) :
    exec (.send v o) s = .next (afterSend v o s) :=
  execSend_next.2 ⟨h, rfl⟩

theorem exec_recv_of_awaitingReply (h : s.st = .awaitingReply) (hlt : s.rxcnt < 8) (k : Nat) :
    exec (.recv k) s = .next (afterRecv k s) :=
  execRecv_next.2 ⟨⟨h, hlt⟩, rfl⟩

theorem exec_verify_of_full (h : s.st = .awaitingReply) (hfull : s.rxcnt = 8) :
    exec .verify s = .next { s with st := if s.rxbuf.b7 = s.pkt.b7 then .verified else .retrying } :=
  execVerify_next.2 ⟨⟨h, hfull⟩, rfl⟩

theorem exec_retry_of_retrying (h : s.st = .retrying) : exec .retry s = .next (afterRetry s) :=
  execRetry_next.2 ⟨h, rfl⟩

theorem exec_deliver_of_verified (h : s.st = .verified) : exec .deliver s = .next (afterDeliver s) :=
  execDeliver_next.2 ⟨h, rfl⟩

end

/-- The bytes of a command, written from offset 0 up, leave offset 7 alone (R91). -/
theorem writeFrom_command (f : Frame) (c : Command) :
    writeFrom f 0 c.toList =
      ⟨c.leftDrive, c.rightDrive, c.augerDrive, c.rail, c.dump, c.reserved1, c.reserved2, f.b7⟩ := by
  simp [Command.toList, writeFrom, setByte]

/-- The state CYCLE_START leads to, field by field. -/
theorem afterCycleStart_eq (sn : Snapshot) (s : State) :
    afterCycleStart sn s = { s with
      pkt := writeFrom s.pkt 0 (encodeIn sn s).toList, retry := 0, st := .sending,
      latch := latchNext s.latch s.prev sn.toggleBtn, prev := sn.toggleBtn } := by
  simp only [afterCycleStart, goto, updateLatch, memWrite]

/-- Settles O15: CYCLE_START stores the bytes of ENCODE and takes its latch writes. -/
theorem cycleStartStoresEncodedCommand : Obligations.CycleStartStoresEncodedCommand := by
  intro s sn hidle
  refine ⟨encodeIn sn s, latchNext s.latch s.prev sn.toggleBtn, exec_encode sn s, ?_, rfl, rfl, rfl⟩
  rw [exec_cycleStart_of_idle hidle, afterCycleStart_eq, writeFrom_command]

/-- A failed write stops before offset 7 (R36): it emits bytes of offsets 0 to 6 only. -/
theorem take_toList_of_lt_frameLen (f : Frame) {j : Nat} (hj : j < 8) :
    f.toList.take j = [f.b0, f.b1, f.b2, f.b3, f.b4, f.b5, f.b6].take j :=
  List.take_append_of_le_length (l₁ := [f.b0, f.b1, f.b2, f.b3, f.b4, f.b5, f.b6]) (l₂ := [f.b7]) (Nat.le_of_lt_succ hj)

/-- Settles O16: the outcome of the write selects the next state and how much of the frame is on the TX stream. -/
theorem sendTransmitsOrIsFatal : Obligations.SendTransmitsOrIsFatal := by
  refine fun s v hst => ⟨exec_send_of_sending hst v .ok, fun j => (exec_send_of_sending hst v (.fail j)).trans ?_⟩
  have hemitted := take_toList_of_lt_frameLen { s.pkt with b7 := drawByte v } j.isLt
  simp only [afterSend, bytesEmitted, hemitted]
  rfl

/-- RXBUF after RECV: the bytes read from the old RXCNT up, every other offset as before (R93). -/
theorem readByte_afterRecv (k a : Nat) (s : State) (ha : a < 8) :
    readByte .rxbuf a (afterRecv k s) =
      if s.rxcnt ≤ a ∧ a < s.rxcnt + rxReadCount (8 - s.rxcnt) k s then s.rxq[a - s.rxcnt]?
      else readByte .rxbuf a s := by
  have hwrite : readByte .rxbuf a (afterRecv k s) =
      readByte .rxbuf a (memWrite .rxbuf s.rxcnt (rxReadBytes (8 - s.rxcnt) k s) s) := readByte_congr rfl rfl _ _
  rw [hwrite, readByte_memWrite_same, rxReadBytes_length]
  by_cases hwin : s.rxcnt ≤ a ∧ a < s.rxcnt + rxReadCount (8 - s.rxcnt) k s
  · rw [if_pos hwin, if_pos ⟨hwin.1, hwin.2, ha⟩, rxReadBytes, List.getElem?_take_of_lt (by omega)]
  · rw [if_neg hwin, if_neg fun ⟨hle, hlt, _⟩ => hwin ⟨hle, hlt⟩]

/-- Settles O17: RECV leads to `afterRecv`, whose bytes `readByte_afterRecv` gives. -/
theorem recvStoresReturnedBytes : Obligations.RecvStoresReturnedBytes := by
  intro s k hst hlt
  exact ⟨afterRecv k s, exec_recv_of_awaitingReply hst hlt k, rfl, (afterRecv_rxq k hlt).2.1,
    fun a ha => readByte_afterRecv k a s ha⟩

/-- RECV that gets no byte leads to the state it started from (R38, R124). -/
theorem afterRecv_of_count_zero {k : Nat} {s : State} (h : rxReadCount (8 - s.rxcnt) k s = 0) : afterRecv k s = s := by
  simp [afterRecv, rxReadBytes, h, writeFrom]

/-- Settles O18: asked for no byte, or with none queued, RxRead returns none. -/
theorem emptyReadIsStutter : Obligations.EmptyReadIsStutter := by
  intro s k hst hlt hempty
  have hcount : rxReadCount (8 - s.rxcnt) k s = 0 := by
    obtain rfl | hq := hempty
    · exact Nat.zero_min _
    · simp [rxReadCount, hq]
  rw [exec_recv_of_awaitingReply hst hlt, afterRecv_of_count_zero hcount]

/-- Settles O19: the comparison selects the next `ST`. -/
theorem verifyComparesVerificationBytes : Obligations.VerifyComparesVerificationBytes := by
  intro s hst hfull
  rw [exec_verify_of_full hst hfull]
  exact ⟨fun heq => by rw [if_pos heq], fun hne => by rw [if_neg hne]⟩

/-- The warning of a mismatch is `low` exactly when it is the first of its cycle (R20 d, R61, R95). -/
theorem severity_succ (n : Nat) : severity (n + 1) = if n = 0 then .low else .high := by
  cases n with
  | zero => rfl
  | succ n => exact if_neg (show ¬ n + 2 < 2 by omega)

/-- Settles O20: RETRY classifies by the incremented counter. -/
theorem retryIncrementsThenClassifies : Obligations.RetryIncrementsThenClassifies := by
  intro s hst
  rw [← severity_succ]
  exact exec_retry_of_retrying hst

/-- Settles O21: the record DELIVER emits is DECODE's of the reply held. -/
theorem deliverForwardsDecodedReply : Obligations.DeliverForwardsDecodedReply := fun _ hst =>
  exec_deliver_of_verified hst

end Sys2Proof.Machine

/-! The state graph (R90, R97, R98): what a step can do in `Fatal`, in `Idle` and within a cycle. -/

namespace Sys2Proof.Machine

/-- A move of the environment other than reset touches the script, the snapshot port and the tail of RXQ only (R46, R97). -/
theorem envMove_ports {s t : State} (h : envMove s = some t) (hreset : resetNext s = false) :
    ∃ es n, t = { s with script := es, freeCount := n, offer := t.offer, rxq := s.rxq ++ arriving s } ∧
      (t.offer = s.offer ∨ ∃ o, s.script.head? = some (.offer o) ∧ t.offer = o) := by
  obtain ⟨o, rest, hscript, rfl⟩ | ⟨c, rest, hscript, rfl⟩ | ⟨rest, hscript, -⟩ | ⟨hscript, -, es, n, rfl⟩ :=
    envMove_some h
  · exact ⟨rest, s.freeCount, by simp [arriving, hscript], .inr ⟨o, by simp [hscript], rfl⟩⟩
  · exact ⟨rest, s.freeCount, by simp [arriving, hscript], .inl rfl⟩
  · simp [resetNext, hscript] at hreset
  · exact ⟨es, n, by simp [arriving, hscript], .inl rfl⟩

/-- In `Fatal` no operation is enabled (R98). -/
theorem blockStep_fatal {s : State} (hfatal : s.st = .fatal) : blockStep s = .fault .eWrite := by
  simp [blockStep, fetch_eq, hfatal]

/-- Settles O36: the block's turn is the fault, so a step is a move of the environment. -/
theorem fatalIsAbsorbing : Obligations.FatalIsAbsorbing := by
  refine fun s hinvoke hfatal =>
    ⟨fun hturn => (step_blockTurn hturn).trans (blockStep_fatal hfatal), fun t hstep hreset => ?_⟩
  obtain ⟨-, hmove⟩ | ⟨-, hblock⟩ := step_next_cases hinvoke hstep
  · obtain ⟨es, n, ht, -⟩ := envMove_ports hmove hreset
    rw [ht]
  · simp [blockStep_fatal hfatal] at hblock

/-- In `Idle` without a snapshot the block waits (R97). -/
theorem blockStep_idle_wait {s : State} (hidle : s.st = .idle) (hoffer : s.offer = none) :
    blockStep s = .next (takeTurn s) := by
  simp [blockStep, fetch_eq, hidle, hoffer]

/-- Within a cycle the block's turn keeps the snapshot port, `PKT[0..6]` and the latch state (R45, R128). -/
theorem blockStep_keeps_command {s t : State} (hst : s.st ≠ .idle) (h : blockStep s = .next t) :
    (∀ a, a < 7 → readByte .pkt a t = readByte .pkt a s) ∧ t.latch = s.latch ∧ t.prev = s.prev ∧ t.offer = s.offer := by
  obtain ⟨hidle, -⟩ | ⟨hidle, -⟩ | ⟨-, v, o, sc, n, rfl⟩ | ⟨-, -, k, sc, n, rfl⟩ | ⟨-, -, rfl⟩ | ⟨-, rfl⟩ | ⟨-, rfl⟩ :=
    blockStep_next h
  · exact absurd hidle hst
  · exact absurd hidle hst
  · exact ⟨fun a ha => readByte_pkt_afterSend (Nat.ne_of_lt ha) v o { s with script := sc, freeCount := n },
      rfl, rfl, rfl⟩
  all_goals exact ⟨fun _ _ => rfl, rfl, rfl, rfl⟩

/-- Settles O37: the wait in `Idle`, and, within a cycle, a move of the environment or the block's turn. -/
theorem snapshotsAreAcceptedInIdleOnly : Obligations.SnapshotsAreAcceptedInIdleOnly := by
  refine ⟨fun s hturn hidle hoffer => (step_blockTurn hturn).trans (blockStep_idle_wait hidle hoffer),
    fun s t hinvoke hst hreset hstep => ?_⟩
  obtain ⟨-, hmove⟩ | ⟨-, hblock⟩ := step_next_cases hinvoke hstep
  · obtain ⟨es, n, ht, hoffer⟩ := envMove_ports hmove hreset
    refine ⟨fun a _ => ?_, ?_, ?_, hoffer⟩
    all_goals rw [ht]
    rfl
  · obtain ⟨hpkt, hlatch, hprev, hoffer⟩ := blockStep_keeps_command hst hblock
    exact ⟨hpkt, hlatch, hprev, .inl hoffer⟩

/-- A completed SEND transmits eight bytes and leads to `AwaitingReply`, a failed one fewer and to `Fatal` (R92, R121). -/
theorem afterSend_edges (v : Draw) (o : WriteOutcome) (s : State) :
    ((afterSend v o s).st = .awaitingReply ∧ (afterSend v o s).tx.length = s.tx.length + 8) ∨
    ((afterSend v o s).st = .fatal ∧ (afterSend v o s).tx.length < s.tx.length + 8) := by
  cases o with
  | ok => exact .inl ⟨rfl, by simp [afterSend, bytesEmitted]⟩
  | fail j => exact .inr ⟨rfl, by simp [afterSend, bytesEmitted]⟩

/-- Settles O38: each line of `blockStep_next` is an edge of the graph, SEND and VERIFY two each. -/
theorem stepFollowsTheStateGraph : Obligations.StepFollowsTheStateGraph := by
  intro s t hturn hstep
  rw [step_blockTurn hturn] at hstep
  obtain ⟨hst, hoffer, ht⟩ | ⟨hst, sn, hoffer, rfl⟩ | ⟨hst, v, o, sc, n, rfl⟩ | ⟨hst, hlt, k, sc, n, rfl⟩ |
    ⟨hst, hfull, rfl⟩ | ⟨hst, rfl⟩ | ⟨hst, rfl⟩ := blockStep_next hstep
  · exact .inl ⟨hst, hoffer, ht⟩
  · exact .inr (.inl ⟨hst, by simp [hoffer], rfl, rfl⟩)
  · obtain ⟨hto, hlen⟩ | ⟨hto, hlen⟩ := afterSend_edges v o { s with script := sc, freeCount := n }
    · exact .inr (.inr (.inl ⟨hst, hto, hlen⟩))
    · exact .inr (.inr (.inr (.inl ⟨hst, hto, hlen⟩)))
  · exact .inr (.inr (.inr (.inr (.inl ⟨hst, hlt, hst⟩))))
  · by_cases hmatch : s.rxbuf.b7 = s.pkt.b7
    · exact .inr (.inr (.inr (.inr (.inr (.inl ⟨hst, hfull, hmatch, if_pos hmatch⟩)))))
    · exact .inr (.inr (.inr (.inr (.inr (.inr (.inl ⟨hst, hfull, hmatch, if_neg hmatch⟩))))))
  · exact .inr (.inr (.inr (.inr (.inr (.inr (.inr (.inl ⟨hst, rfl⟩)))))))
  · exact .inr (.inr (.inr (.inr (.inr (.inr (.inr (.inr ⟨hst, rfl⟩)))))))

end Sys2Proof.Machine

/-! The block's turn while the environment makes no move (R9, R68): the next line of the script is an answer, or there is no
line and none will come. Each transition is then the next step. -/

namespace Sys2Proof.Machine

/-- The environment makes no move now: it has an answer ready, or it has ended its moves. -/
def EnvQuiet (s : State) : Prop :=
  (∀ e, s.script.head? = some e → isAnswer e = true) ∧ (s.script = [] → s.ending = .silent)

section

variable {s : State} {es : List EnvInput}

/-- With an answer at the head of the script the environment makes no move. -/
theorem EnvQuiet.of_answer {e : EnvInput} (h : s.script = e :: es) (he : isAnswer e = true) : EnvQuiet s := by
  constructor <;> simp [h, he]

/-- With no move to be made, it is the block's turn. -/
theorem EnvQuiet.blockTurn (hq : EnvQuiet s) (hinvoke : s.invoke = none) : blockTurn s = true := by
  obtain ⟨hanswer, hsilent⟩ := hq
  cases hscript : s.script with
  | nil => simp [Machine.blockTurn, hinvoke, envMove, moreLines, hscript, hsilent hscript]
  | cons e es =>
    have he := hanswer e (by simp [hscript])
    cases e <;> simp_all [Machine.blockTurn, envMove, isAnswer]

/-- Without an entry `turn` to consume, taking the turn leaves the state as it is. -/
theorem EnvQuiet.takeTurn (hq : EnvQuiet s) : takeTurn s = s :=
  takeTurn_other fun hturn => by simpa [isAnswer] using hq.1 _ hturn

/-- While the environment makes no move, a step is the operation the state selects. -/
theorem EnvQuiet.step (hq : EnvQuiet s) (hinvoke : s.invoke = none) {i : Instr} {u : State} (h : fetch s = .run i u) :
    step s = exec i u :=
  step_fetched (hq.blockTurn hinvoke) (hq.takeTurn.symm ▸ h)

variable (hinvoke : s.invoke = none)

include hinvoke

/-- CYCLE_START takes the snapshot offered (R91). -/
theorem step_cycleStart (hq : EnvQuiet s) (hst : s.st = .idle) {sn : Snapshot} (hoffer : s.offer = some sn) :
    step s = .next (afterCycleStart sn { s with offer := none }) :=
  (hq.step hinvoke (fetch_cycleStart (by rw [decodeDispatch_dispatchWord, hst]) hoffer)).trans
    (exec_cycleStart_of_idle (s := { s with offer := none }) hst sn)

/-- SEND takes a draw that the script gives without an outcome: the write completes (R68, R92). -/
theorem step_send_draw (hst : s.st = .sending) {v : Draw} (hscript : s.script = .draw v :: es)
    (hno : ∀ o, es.head? ≠ some (.wr o)) : step s = .next (afterSend v .ok { s with script := es }) := by
  have hfetch := fetch_send (s := s) (by rw [decodeDispatch_dispatchWord, hst])
  rw [(EnvQuiet.of_answer hscript rfl).step hinvoke hfetch, sendAnswer_draw hscript hno]
  exact exec_send_of_sending (s := { s with script := es }) hst v .ok

/-- RECV takes the count that the script gives (R93). -/
theorem step_read (hst : s.st = .awaitingReply) (hlt : s.rxcnt < 8) {k : Nat} (hscript : s.script = .read k :: es) :
    step s = .next (afterRecv k { s with script := es }) := by
  have hfetch := fetch_recv (s := s) (by simp only [decodeDispatch_dispatchWord, hst, if_neg (Nat.ne_of_lt hlt)])
  rw [(EnvQuiet.of_answer hscript rfl).step hinvoke hfetch, readAnswer_read hscript]
  exact exec_recv_of_awaitingReply (s := { s with script := es }) hst hlt k

/-- VERIFY judges a full reply (R94). -/
theorem step_verify (hq : EnvQuiet s) (hst : s.st = .awaitingReply) (hfull : s.rxcnt = 8) :
    step s = .next { s with st := if s.rxbuf.b7 = s.pkt.b7 then .verified else .retrying } :=
  (hq.step hinvoke (fetch_verify (by simp only [decodeDispatch_dispatchWord, hst, if_pos hfull]))).trans
    (exec_verify_of_full hst hfull)

/-- RETRY follows a mismatch (R95). -/
theorem step_retry (hq : EnvQuiet s) (hst : s.st = .retrying) : step s = .next (afterRetry s) :=
  (hq.step hinvoke (fetch_retry (by rw [decodeDispatch_dispatchWord, hst]))).trans (exec_retry_of_retrying hst)

/-- DELIVER follows a match (R96). -/
theorem step_deliver (hq : EnvQuiet s) (hst : s.st = .verified) : step s = .next (afterDeliver s) :=
  (hq.step hinvoke (fetch_deliver (by rw [decodeDispatch_dispatchWord, hst]))).trans (exec_deliver_of_verified hst)

end

end Sys2Proof.Machine

/-! The reply of an attempt (R37, R93, R101): a read moves bytes from RXQ to RXBUF, so what is held and what is queued are
together the bytes that have arrived, in order, however the reads split them. -/

namespace Sys2Proof.Machine

/-- The bytes of the reply held in RXBUF, then those queued in RXQ. -/
def replyBytes (s : State) : List Byte := s.rxbuf.toList.take s.rxcnt ++ s.rxq

/-- RECV moves bytes from RXQ to RXBUF and loses none (R37, R40, R93). -/
theorem replyBytes_afterRecv {s : State} (hle : s.rxcnt ≤ 8) (k : Nat) : replyBytes (afterRecv k s) = replyBytes s := by
  have hcount := (rxReadCount_le (8 - s.rxcnt) k s).1
  have hheld := writeFrom_take s.rxbuf s.rxcnt (rxReadBytes (8 - s.rxcnt) k s) (by rw [rxReadBytes_length]; omega)
  rw [rxReadBytes_length] at hheld
  simp only [replyBytes, afterRecv, hheld]
  rw [List.append_assoc, rxReadBytes, List.take_append_drop]

/-- The bytes held are the first RXCNT of the reply's, the bytes queued the others. -/
theorem replyBytes_split {s : State} (hle : s.rxcnt ≤ 8) :
    s.rxbuf.toList.take s.rxcnt = (replyBytes s).take s.rxcnt ∧ s.rxq = (replyBytes s).drop s.rxcnt := by
  have hlen : (s.rxbuf.toList.take s.rxcnt).length = s.rxcnt := by simpa using hle
  exact ⟨(List.take_left' hlen).symm, (List.drop_left' hlen).symm⟩

/-- With no byte held yet, the reply's bytes are those queued. -/
theorem replyBytes_of_empty {s : State} (h : s.rxcnt = 0) : replyBytes s = s.rxq := by simp [replyBytes, h]

section

variable {s : State} {c : List Byte} {rest : List EnvInput}

/-- The state that a script line `RX` leads to while a reply is incomplete: its bytes arrive, then are read. -/
def afterLineRx (c : List Byte) (rest : List EnvInput) (s : State) : State :=
  afterRecv c.length { s with script := rest, rxq := s.rxq ++ c }

/-- A script line `RX` is two steps: the arrival and the read. -/
theorem run_lineRx (hinvoke : s.invoke = none) (hst : s.st = .awaitingReply) (hlt : s.rxcnt < 8)
    (hscript : s.script = lineRx c ++ rest) : run 2 s = .next (afterLineRx c rest s) := by
  rw [run_step 1 (step_arrive hinvoke hscript)]
  exact run_step 0 (step_read (s := { s with script := .read c.length :: rest, rxq := s.rxq ++ c }) hinvoke hst hlt rfl)

/-- A line's bytes join those of the reply. -/
theorem replyBytes_afterLineRx (hle : s.rxcnt ≤ 8) : replyBytes (afterLineRx c rest s) = replyBytes s ++ c := by
  rw [afterLineRx, replyBytes_afterRecv (s := { s with script := rest, rxq := s.rxq ++ c }) hle]
  exact (List.append_assoc ..).symm

/-- A line whose bytes the frame has room for is read whole. -/
theorem afterLineRx_rxcnt (hroom : s.rxcnt + c.length ≤ 8) : (afterLineRx c rest s).rxcnt = s.rxcnt + c.length := by
  simp only [afterLineRx, afterRecv, rxReadCount, List.length_append]
  omega

end

/-- Script lines `RX` that a frame has room for, by induction on the lines: every line but the last finds the reply
incomplete, and so is read. -/
theorem run_linesRx {s : State} {cs : List (List Byte)} {rest : List EnvInput} (hinvoke : s.invoke = none)
    (hst : s.st = .awaitingReply) (hscript : s.script = cs.flatMap lineRx ++ rest)
    (hbefore : cs ≠ [] → s.rxcnt + cs.dropLast.flatten.length < 8) (hroom : s.rxcnt + cs.flatten.length ≤ 8) :
    ∃ t, run (2 * cs.length) s = .next t ∧ t.st = .awaitingReply ∧ t.script = rest ∧
      t.rxcnt = s.rxcnt + cs.flatten.length ∧ replyBytes t = replyBytes s ++ cs.flatten ∧
      t.pkt = s.pkt ∧ t.tx = s.tx ∧ t.events = s.events := by
  induction cs generalizing s with
  | nil => exact ⟨s, rfl, hst, hscript, rfl, by simp, rfl, rfl, rfl⟩
  | cons c cs ih =>
    have hlt : s.rxcnt < 8 := by have := hbefore (List.cons_ne_nil _ _); omega
    rw [List.flatten_cons, List.length_append] at hroom
    rw [List.flatMap_cons, List.append_assoc] at hscript
    have hcnt : (afterLineRx c (cs.flatMap lineRx ++ rest) s).rxcnt = s.rxcnt + c.length := afterLineRx_rxcnt (by omega)
    obtain ⟨t, hrun, htst, htscript, htcnt, htbytes, hpkt, htx, hevents⟩ :=
      ih (s := afterLineRx c (cs.flatMap lineRx ++ rest) s) hinvoke hst rfl
        (fun hne => by
          have := hbefore (List.cons_ne_nil _ _)
          rw [List.dropLast_cons_of_ne_nil hne, List.flatten_cons, List.length_append] at this
          omega)
        (by omega)
    refine ⟨t, ?_, htst, htscript, ?_, ?_, hpkt, htx, hevents⟩
    · rw [List.length_cons, Nat.mul_succ, Nat.add_comm, run_add _ (run_lineRx hinvoke hst hlt hscript), hrun]
    · rw [htcnt, hcnt, List.flatten_cons, List.length_append, Nat.add_assoc]
    · rw [htbytes, replyBytes_afterLineRx (Nat.le_of_lt hlt), List.flatten_cons, List.append_assoc]

/-- Settles O45: the lines' bytes join those queued, and RXBUF holds the first RXCNT of them. -/
theorem fragmentsAssembleOneFrame : Obligations.FragmentsAssembleOneFrame := by
  intro s cs rest hinvoke hst hempty hscript hbefore hroom
  obtain ⟨t, hrun, htst, htscript, htcnt, htbytes, hpkt, htx, hevents⟩ :=
    run_linesRx hinvoke hst hscript (fun _ => by omega) (by omega)
  rw [hempty, Nat.zero_add] at htcnt
  rw [replyBytes_of_empty hempty] at htbytes
  obtain ⟨hheld, hqueued⟩ := replyBytes_split (s := t) (by omega)
  rw [htbytes] at hheld hqueued
  exact ⟨t, hrun, htst, htscript, htcnt, by rw [full_iff, htcnt], hheld, hqueued, hpkt, htx, hevents⟩

end Sys2Proof.Machine

/-! Attempts of a cycle (R92 to R95, R100): what a SEND leaves open, what an attempt that fails has done by the time of the
next SEND, and that both compose. -/

namespace Sys2Proof.Machine

/-- The warnings of `n` mismatches, the retry counter being `r` before the first of them (R95). -/
def retryWarningsFrom (r n : Nat) : List Event := (List.range n).map fun k => .warn (severity (r + k + 1))

theorem retryWarningsFrom_add (r m n : Nat) :
    retryWarningsFrom r (m + n) = retryWarningsFrom r m ++ retryWarningsFrom (r + m) n := by
  simp [retryWarningsFrom, List.range_add, Nat.add_assoc]

/-- From a cleared counter these are the warnings of a whole cycle (R100). -/
theorem retryWarningsFrom_zero (n : Nat) : retryWarningsFrom 0 n = retryWarnings n := by
  induction n with
  | zero => rfl
  | succ n ih =>
    rw [retryWarnings_succ, ← ih, retryWarningsFrom_add, Nat.zero_add]
    rfl

/-- The attempt with draw `v` begun by a SEND in `p` is under way in `s`: its frame is transmitted, nothing is decided. -/
structure AttemptOpen (v : Draw) (p s : State) : Prop where
  pkt : s.pkt = { p.pkt with b7 := drawByte v }
  tx : s.tx = p.tx ++ s.pkt.toList
  retry : s.retry = p.retry
  events : s.events = p.events
  latch : s.latch = p.latch
  prev : s.prev = p.prev
  ending : s.ending = p.ending
  invoke : s.invoke = p.invoke

/-- The attempts `as` led from `s` to the `Sending` state `t`, each by a SEND and, in the end, a RETRY. -/
structure AttemptsFailed (as : List Attempt) (s t : State) : Prop where
  st : t.st = .sending
  command : t.pkt = { s.pkt with b7 := t.pkt.b7 }
  tx : t.tx = s.tx ++ attemptFrames s.pkt as
  retry : t.retry = s.retry + as.length
  events : t.events = s.events ++ retryWarningsFrom s.retry as.length
  latch : t.latch = s.latch
  prev : t.prev = s.prev
  ending : t.ending = s.ending
  invoke : t.invoke = s.invoke

theorem attemptFrames_append (f : Frame) (as bs : List Attempt) :
    attemptFrames f (as ++ bs) = attemptFrames f as ++ attemptFrames f bs := List.flatMap_append ..

theorem attemptReplies_append (as bs : List Attempt) :
    attemptReplies (as ++ bs) = attemptReplies as ++ attemptReplies bs := List.flatMap_append ..

theorem attemptReplies_singleton (a : Attempt) : attemptReplies [a] = a.reply.toList := List.flatMap_singleton ..

/-- An attempt is accepted when its reply carries its draw at offset 7 (R94). -/
theorem Attempt.accepted_iff (a : Attempt) : a.accepted = true ↔ a.reply.b7 = drawByte a.draw := beq_iff_eq

namespace AttemptsFailed

variable {as bs : List Attempt} {s t u : State}

theorem nil (hst : s.st = .sending) : AttemptsFailed [] s s :=
  ⟨hst, rfl, (List.append_nil _).symm, rfl, (List.append_nil _).symm, rfl, rfl, rfl, rfl⟩

theorem trans (h : AttemptsFailed as s t) (h' : AttemptsFailed bs t u) : AttemptsFailed (as ++ bs) s u where
  st := h'.st
  command := by rw [h'.command, h.command]
  tx := by
    have hframes : attemptFrames t.pkt bs = attemptFrames s.pkt bs := by
      rw [h.command]
      rfl
    rw [h'.tx, h.tx, hframes, attemptFrames_append, List.append_assoc]
  retry := by rw [h'.retry, h.retry, List.length_append, Nat.add_assoc]
  events := by rw [h'.events, h.events, h.retry, List.length_append, retryWarningsFrom_add, List.append_assoc]
  latch := h'.latch.trans h.latch
  prev := h'.prev.trans h.prev
  ending := h'.ending.trans h.ending
  invoke := h'.invoke.trans h.invoke

end AttemptsFailed

namespace AttemptOpen

variable {v : Draw} {p s : State}

/-- A completed SEND opens an attempt, whatever it takes from the script (R92). -/
theorem of_send (v : Draw) (p : State) (es : List EnvInput) (n : Nat) :
    AttemptOpen v p (afterSend v .ok { p with script := es, freeCount := n }) :=
  ⟨rfl, rfl, rfl, rfl, rfl, rfl, rfl, rfl⟩

/-- RETRY ends an attempt, whatever its reply is (R95). -/
theorem failed (h : AttemptOpen v p s) (r : Frame) : AttemptsFailed [⟨v, r⟩] p (afterRetry s) where
  st := rfl
  command := by simp only [afterRetry, h.pkt]
  tx := by
    simp only [afterRetry, h.tx, h.pkt]
    rfl
  retry := congrArg (· + 1) h.retry
  events := by
    simp only [afterRetry, h.events, h.retry]
    rfl
  latch := h.latch
  prev := h.prev
  ending := h.ending
  invoke := h.invoke

end AttemptOpen

/-- What the cycle of command `cmd` has done when it ends in `s`: `failed` and then `last` were its attempts (R96, R100). -/
structure CycleDone (cmd : State) (failed : List Attempt) (last : Attempt) (s : State) : Prop where
  st : s.st = .idle
  retry : s.retry = cmd.retry + failed.length
  tx : s.tx = cmd.tx ++ attemptFrames cmd.pkt (failed ++ [last])
  events : s.events = cmd.events ++ retryWarningsFrom cmd.retry failed.length ++ [.sink (statusOf last.reply)]
  latch : s.latch = cmd.latch
  prev : s.prev = cmd.prev

/-- DELIVER ends the cycle with the reply of the attempt under way. -/
theorem AttemptsFailed.deliver {failed : List Attempt} {last : Attempt} {cmd p s : State}
    (hp : AttemptsFailed failed cmd p) (hopen : AttemptOpen last.draw p s) (hreply : s.rxbuf = last.reply) :
    CycleDone cmd failed last (afterDeliver s) where
  st := rfl
  retry := hopen.retry.trans hp.retry
  tx := (hp.trans (hopen.failed last.reply)).tx
  events := by simp only [afterDeliver, hopen.events, hp.events, hreply]
  latch := hopen.latch.trans hp.latch
  prev := hopen.prev.trans hp.prev

end Sys2Proof.Machine

/-! An attempt whose reply is read whole (R93 to R95): the steps it takes, all of them within the loop of the cycle. -/

namespace Sys2Proof.Machine

/-- The block is in the loop of a cycle: it transmits, waits for a reply, or is about to transmit again (R99). -/
def Looping (s : State) : Prop := s.st = .sending ∨ s.st = .awaitingReply ∨ s.st = .retrying

/-- `n` steps that lead from one state to another and begin in the loop each. -/
inductive LoopPath : Nat → State → State → Prop
  | nil (s : State) : LoopPath 0 s s
  | cons {n : Nat} {s t u : State} (hloop : Looping s) (hstep : step s = .next t) (hpath : LoopPath n t u) :
      LoopPath (n + 1) s u

namespace LoopPath

variable {m n k : Nat} {s t u : State}

theorem single (hloop : Looping s) (hstep : step s = .next t) : LoopPath 1 s t := .cons hloop hstep (.nil t)

theorem trans (h : LoopPath m s t) (h' : LoopPath n t u) (hk : k = m + n) : LoopPath k s u := by
  subst hk
  induction h with
  | nil s => rwa [Nat.zero_add]
  | @cons m s r t hloop hstep _ ih =>
    rw [Nat.succ_add]
    exact .cons hloop hstep (ih h')

theorem run (h : LoopPath n s t) : run n s = .next t := by
  induction h with
  | nil s => rfl
  | cons _ hstep _ ih => rw [run_step _ hstep, ih]

/-- On the way of a path, and at its end if that is in the loop, the block is in the loop. -/
theorem looping (h : LoopPath n s t) (ht : Looping t) (hm : m ≤ n) : ∃ u, Machine.run m s = .next u ∧ Looping u := by
  induction h generalizing m with
  | nil s => exact ⟨s, by rw [Nat.le_zero.1 hm]; rfl, ht⟩
  | @cons n s r t hloop hstep _ ih =>
    cases m with
    | zero => exact ⟨s, rfl, hloop⟩
    | succ m =>
      obtain ⟨u, hrun, hu⟩ := ih ht (Nat.le_of_succ_le_succ hm)
      exact ⟨u, by rw [run_step _ hstep, hrun], hu⟩

end LoopPath

/-- The attempt `a` begun in `p` holds the whole of its reply, which is not judged yet. -/
structure ReplyHeld (a : Attempt) (p s : State) : Prop extends AttemptOpen a.draw p s where
  st : s.st = .awaitingReply
  full : s.rxcnt = 8
  reply : s.rxbuf = a.reply

/-- One read of 8 takes a reply that is queued whole (R93). -/
theorem afterRecv_whole {s : State} {r : Frame} {later : List Byte} (hempty : s.rxcnt = 0)
    (hqueue : s.rxq = r.toList ++ later) :
    (afterRecv 8 s).rxcnt = 8 ∧ (afterRecv 8 s).rxbuf = r ∧ (afterRecv 8 s).rxq = later := by
  have hcnt : (afterRecv 8 s).rxcnt = 8 := by
    simp only [afterRecv, rxReadCount, hempty, hqueue, List.length_append, frame_toList_length]
    omega
  have hbytes := replyBytes_afterRecv (s := s) (by omega) 8
  rw [replyBytes_of_empty hempty, hqueue, replyBytes, hcnt, List.take_of_length_le (Nat.le_refl 8)] at hbytes
  obtain ⟨hheld, hrest⟩ := List.append_inj hbytes rfl
  exact ⟨hcnt, frame_ext hheld, hrest⟩

section

variable {a : Attempt} {p s : State} {es : List EnvInput} {later : List Byte} (hinvoke : s.invoke = none)

include hinvoke

/-- SEND with the attempt's draw in the script opens the attempt (R92). -/
theorem loopPath_send (hst : s.st = .sending) (hscript : s.script = .draw a.draw :: es)
    (hno : ∀ o, es.head? ≠ some (.wr o)) :
    ∃ u, LoopPath 1 s u ∧ AttemptOpen a.draw s u ∧ u.st = .awaitingReply ∧ u.rxcnt = 0 ∧ u.script = es ∧
      u.rxq = s.rxq ∧ u.offer = s.offer :=
  ⟨_, .single (.inl hst) (step_send_draw hinvoke hst hscript hno), .of_send a.draw s es s.freeCount,
    rfl, rfl, rfl, rfl, rfl⟩

/-- A read of 8 takes the whole reply of the attempt under way (R93). -/
theorem loopPath_read (hopen : AttemptOpen a.draw p s) (hst : s.st = .awaitingReply) (hempty : s.rxcnt = 0)
    (hqueue : s.rxq = a.reply.toList ++ later) (hscript : s.script = .read 8 :: es) :
    ∃ u, LoopPath 1 s u ∧ ReplyHeld a p u ∧ u.script = es ∧ u.rxq = later ∧ u.offer = s.offer := by
  obtain ⟨hfull, hreply, hlater⟩ := afterRecv_whole (s := { s with script := es }) hempty hqueue
  exact ⟨afterRecv 8 { s with script := es }, .single (.inr (.inl hst)) (step_read hinvoke hst (by omega) hscript),
    { hopen with st := hst, full := hfull, reply := hreply }, rfl, hlater, rfl⟩

/-- VERIFY judges the reply held (R94). -/
theorem step_verify_replyHeld (h : ReplyHeld a p s) (hq : EnvQuiet s) :
    step s = .next { s with st := if a.accepted then .verified else .retrying } := by
  rw [step_verify hinvoke hq h.st h.full]
  simp only [Attempt.accepted_iff, h.reply, h.pkt]

/-- A reply that differs is judged, and RETRY ends the attempt (R94, R95). -/
theorem loopPath_fail (h : ReplyHeld a p s) (hdiffers : a.accepted = false) (hq : EnvQuiet s) :
    ∃ u, LoopPath 2 s u ∧ AttemptsFailed [a] p u ∧ u.script = s.script ∧ u.rxq = s.rxq ∧ u.offer = s.offer := by
  have hverify := step_verify_replyHeld hinvoke h hq
  rw [hdiffers] at hverify
  have hretry := step_retry (s := { s with st := .retrying }) hinvoke hq rfl
  have hopen : AttemptOpen a.draw p { s with st := .retrying } := { h.toAttemptOpen with }
  exact ⟨_, .cons (.inr (.inl h.st)) hverify (.single (.inr (.inr rfl)) hretry), hopen.failed a.reply, rfl, rfl, rfl⟩

/-- A reply that matches is judged and delivered (R94, R96). -/
theorem run_deliver (h : ReplyHeld a p s) (haccepted : a.accepted = true) (hq : EnvQuiet s) :
    run 2 s = .next (afterDeliver { s with st := .verified }) := by
  have hverify := step_verify_replyHeld hinvoke h hq
  rw [haccepted] at hverify
  rw [run_step 1 hverify]
  exact run_step 0 (step_deliver (s := { s with st := .verified }) hinvoke hq rfl)

end

end Sys2Proof.Machine

/-! Cycles with whole replies: one that ends (R100), and one that never does (R99). -/

namespace Sys2Proof.Machine

section

variable {a : Attempt} {as : List Attempt} {s : State} {es : List EnvInput} {later : List Byte}

theorem attemptAnswers_cons : attemptAnswers (a :: as) = .draw a.draw :: .read 8 :: attemptAnswers as := rfl

theorem attemptAnswers_append (as bs : List Attempt) :
    attemptAnswers (as ++ bs) = attemptAnswers as ++ attemptAnswers bs := List.flatMap_append ..

theorem attemptLines_cons :
    attemptLines (a :: as) = .draw a.draw :: .arrive a.reply.toList :: .read 8 :: attemptLines as := rfl

theorem attemptReplies_cons : attemptReplies (a :: as) = a.reply.toList ++ attemptReplies as := rfl

variable (hinvoke : s.invoke = none) (hst : s.st = .sending)

include hinvoke hst

/-- An attempt whose reply is queued: SEND, and one read of the reply. -/
theorem loopPath_queuedReply (hscript : s.script = .draw a.draw :: .read 8 :: es)
    (hqueue : s.rxq = a.reply.toList ++ later) :
    ∃ u, LoopPath 2 s u ∧ ReplyHeld a s u ∧ u.script = es ∧ u.rxq = later ∧ u.offer = s.offer := by
  obtain ⟨t, hsend, hopen, htst, htcnt, htscript, htqueue, htoffer⟩ :=
    loopPath_send hinvoke hst hscript (by simp)
  obtain ⟨u, hread, hheld, huscript, huqueue, huoffer⟩ :=
    loopPath_read (hopen.invoke.trans hinvoke) hopen htst htcnt (htqueue.trans hqueue) htscript
  exact ⟨u, hsend.trans hread rfl, hheld, huscript, huqueue, huoffer.trans htoffer⟩

/-- Attempts whose replies are queued and differ, by induction on the attempts. -/
theorem loopPath_queuedReplies (hdiffer : ∀ a ∈ as, a.accepted = false) {v : Draw}
    (hscript : s.script = attemptAnswers as ++ .draw v :: es) (hqueue : s.rxq = attemptReplies as ++ later) :
    ∃ t, LoopPath (4 * as.length) s t ∧ AttemptsFailed as s t ∧ t.script = .draw v :: es ∧ t.rxq = later ∧
      t.offer = s.offer := by
  induction as generalizing s with
  | nil => exact ⟨s, .nil s, .nil hst, hscript, hqueue, rfl⟩
  | cons a as ih =>
    obtain ⟨hdiffers, hrest⟩ := List.forall_mem_cons.1 hdiffer
    rw [attemptReplies_cons, List.append_assoc] at hqueue
    obtain ⟨u, hpath, hheld, huscript, huqueue, huoffer⟩ := loopPath_queuedReply hinvoke hst hscript hqueue
    have huinvoke : u.invoke = none := hheld.invoke.trans hinvoke
    have hquiet : EnvQuiet u := by
      cases as with
      | nil => exact .of_answer huscript rfl
      | cons b bs => exact .of_answer huscript rfl
    obtain ⟨w, hfail, hfailed, hwscript, hwqueue, hwoffer⟩ := loopPath_fail huinvoke hheld hdiffers hquiet
    obtain ⟨t, hloop, hall, htscript, htqueue, htoffer⟩ :=
      ih (hfailed.invoke.trans hinvoke) hfailed.st hrest (hwscript.trans huscript) (hwqueue.trans huqueue)
    exact ⟨t, (hpath.trans hfail rfl).trans hloop (by rw [List.length_cons]; omega), hfailed.trans hall, htscript,
      htqueue, htoffer.trans (hwoffer.trans huoffer)⟩

/-- A cycle whose replies are queued: the attempts that fail, then the last one, which DELIVER ends (R100). -/
theorem run_queuedReplies {failed : List Attempt} {last : Attempt} (hdiffer : ∀ a ∈ failed, a.accepted = false)
    (haccepted : last.accepted = true) (hscript : s.script = attemptAnswers (failed ++ [last]) ++ es)
    (hanswer : ∀ e, es.head? = some e → isAnswer e = true) (hsilent : es = [] → s.ending = .silent)
    (hqueue : s.rxq = attemptReplies (failed ++ [last]) ++ later) :
    ∃ t, run (4 * (failed.length + 1)) s = .next t ∧ CycleDone s failed last t ∧ t.script = es ∧ t.rxq = later ∧
      t.offer = s.offer := by
  rw [attemptAnswers_append, List.append_assoc] at hscript
  rw [attemptReplies_append, attemptReplies_singleton, List.append_assoc] at hqueue
  obtain ⟨p, hloop, hfailed, hpscript, hpqueue, hpoffer⟩ :=
    loopPath_queuedReplies hinvoke hst hdiffer hscript hqueue
  have hpinvoke : p.invoke = none := hfailed.invoke.trans hinvoke
  obtain ⟨w, hlast, hheld, hwscript, hwqueue, hwoffer⟩ := loopPath_queuedReply hpinvoke hfailed.st hpscript hpqueue
  have hquiet : EnvQuiet w := by
    rw [EnvQuiet, hwscript, hheld.ending, hfailed.ending]
    exact ⟨hanswer, hsilent⟩
  have hopen : AttemptOpen last.draw p { w with st := .verified } := { hheld.toAttemptOpen with }
  refine ⟨afterDeliver { w with st := .verified }, ?_, hfailed.deliver hopen hheld.reply, hwscript, hwqueue,
    hwoffer.trans hpoffer⟩
  rw [Nat.mul_succ, run_add 2 (hloop.trans hlast rfl).run]
  exact run_deliver (hheld.invoke.trans hpinvoke) hheld haccepted hquiet

end

/-! CYCLE_START begins the cycle in `Sending` with a cleared counter and leaves the outputs and the script alone (R91). -/

@[simp] theorem afterCycleStart_st (sn : Snapshot) (s : State) : (afterCycleStart sn s).st = .sending := goto_st ..
@[simp] theorem afterCycleStart_retry (sn : Snapshot) (s : State) : (afterCycleStart sn s).retry = 0 := goto_retry ..
@[simp] theorem afterCycleStart_events (sn : Snapshot) (s : State) : (afterCycleStart sn s).events = s.events := by
  simp [afterCycleStart]
@[simp] theorem afterCycleStart_script (sn : Snapshot) (s : State) : (afterCycleStart sn s).script = s.script := by
  simp [afterCycleStart]
@[simp] theorem afterCycleStart_ending (sn : Snapshot) (s : State) : (afterCycleStart sn s).ending = s.ending := by
  simp [afterCycleStart]
@[simp] theorem afterCycleStart_invoke (sn : Snapshot) (s : State) : (afterCycleStart sn s).invoke = s.invoke := by
  simp [afterCycleStart]

/-- CYCLE_START does not read the snapshot port (R91). -/
theorem afterCycleStart_offer_none (sn : Snapshot) (s : State) :
    afterCycleStart sn { s with offer := none } = { afterCycleStart sn s with offer := none } := by
  simp only [afterCycleStart_eq, encodeIn]

/-- Settles O46: the step that begins the cycle, then the cycle's attempts. -/
theorem retryCountLaw : Obligations.RetryCountLaw := by
  intro s u sn failed last rest later hinvoke hidle hoffer hstart hdiffer haccepted hscript hanswer hsilent hqueue
  have hquiet : EnvQuiet s := by
    cases failed with
    | nil => exact .of_answer hscript rfl
    | cons a as => exact .of_answer hscript rfl
  have hbegin := step_cycleStart hinvoke hquiet hidle hoffer
  obtain ⟨-, hu⟩ := execCycleStart_next.1 hstart
  rw [afterCycleStart_offer_none, ← hu] at hbegin
  obtain ⟨t, hrun, hdone, htscript, htqueue, htoffer⟩ :=
    run_queuedReplies (s := { u with offer := none }) (by simp [hu, hinvoke]) (by simp [hu]) hdiffer haccepted
      (by simpa [hu] using hscript) hanswer (by simpa [hu] using hsilent) (by simpa [hu] using hqueue)
  refine ⟨t, ?_, hdone.st, ?_, htscript, htqueue, htoffer, ?_, ?_, hdone.latch, hdone.prev⟩
  · rw [Nat.add_comm, run_step _ hbegin, hrun]
  · simpa [hu] using hdone.retry
  · simpa [hu] using hdone.tx
  · simpa [hu, retryWarningsFrom_zero] using hdone.events

section

variable {a : Attempt} {as lines : List Attempt} {s : State} {es : List EnvInput}
  (hinvoke : s.invoke = none) (hst : s.st = .sending) (hempty : s.rxq = [])

include hinvoke hst hempty

/-- An attempt whose reply arrives as it waits: SEND, the arrival, and one read of the reply. -/
theorem loopPath_arrivingReply (hscript : s.script = .draw a.draw :: .arrive a.reply.toList :: .read 8 :: es) :
    ∃ u, LoopPath 3 s u ∧ ReplyHeld a s u ∧ u.script = es ∧ u.rxq = [] := by
  obtain ⟨t, hsend, hopen, htst, htcnt, htscript, htqueue, -⟩ := loopPath_send hinvoke hst hscript (by simp)
  have htinvoke : t.invoke = none := hopen.invoke.trans hinvoke
  have harrive := step_arrive htinvoke htscript
  have hqueue : t.rxq ++ a.reply.toList = a.reply.toList ++ [] := by simp [htqueue, hempty]
  have hopen' : AttemptOpen a.draw s { t with script := .read 8 :: es, rxq := t.rxq ++ a.reply.toList } :=
    { hopen with }
  obtain ⟨u, hread, hheld, huscript, huqueue, -⟩ :=
    loopPath_read (s := { t with script := .read 8 :: es, rxq := t.rxq ++ a.reply.toList }) htinvoke hopen' htst htcnt
      hqueue rfl
  exact ⟨u, (hsend.trans (.single (.inr (.inl htst)) harrive) rfl).trans hread rfl, hheld, huscript, huqueue⟩

/-- One round of an environment that repeats its lines, by induction on the lines still to come: when the last of them is
used up, the environment goes on with all of them before the reply is judged (log 25). -/
theorem loopPath_round (hdiffer : ∀ a ∈ as, a.accepted = false) (has : as ≠ []) (hlines : lines ≠ [])
    (hscript : s.script = attemptLines as) (hending : s.ending = .again (attemptLines lines)) :
    ∃ t, LoopPath (5 * as.length + 1) s t ∧ AttemptsFailed as s t ∧ t.script = attemptLines lines ∧ t.rxq = [] := by
  induction as generalizing s with
  | nil => exact absurd rfl has
  | cons a as ih =>
    obtain ⟨hdiffers, hrest⟩ := List.forall_mem_cons.1 hdiffer
    obtain ⟨u, hpath, hheld, huscript, huqueue⟩ := loopPath_arrivingReply hinvoke hst hempty hscript
    have huinvoke : u.invoke = none := hheld.invoke.trans hinvoke
    cases as with
    | nil =>
      obtain ⟨b, bs, rfl⟩ := List.exists_cons_of_ne_nil hlines
      have hrefill := step_again huinvoke huscript (hheld.ending.trans hending)
      have hheld' : ReplyHeld a s { u with script := attemptLines (b :: bs) } := { hheld with }
      obtain ⟨t, hfail, hfailed, htscript, htqueue, -⟩ :=
        loopPath_fail (s := { u with script := attemptLines (b :: bs) }) huinvoke hheld' hdiffers
          (.of_answer attemptLines_cons rfl)
      exact ⟨t, (hpath.trans (.single (.inr (.inl hheld.st)) hrefill) rfl).trans hfail rfl, hfailed, htscript,
        htqueue.trans huqueue⟩
    | cons b bs =>
      obtain ⟨w, hfail, hfailed, hwscript, hwqueue, -⟩ :=
        loopPath_fail huinvoke hheld hdiffers (.of_answer huscript rfl)
      obtain ⟨t, hloop, hall, htscript, htqueue⟩ :=
        ih (hfailed.invoke.trans hinvoke) hfailed.st (hwqueue.trans huqueue) hrest (List.cons_ne_nil b bs)
          (hwscript.trans huscript) (hfailed.ending.trans hending)
      exact ⟨t, (hpath.trans hfail rfl).trans hloop (by simp only [List.length_cons]; omega), hfailed.trans hall,
        htscript, htqueue⟩

/-- Any number of rounds, by induction on it: each ends in `Sending` with all lines to come. -/
theorem loopPath_rounds (hdiffer : ∀ a ∈ as, a.accepted = false) (has : as ≠ []) (hscript : s.script = attemptLines as)
    (hending : s.ending = .again (attemptLines as)) (n : Nat) :
    ∃ t, LoopPath (n * (5 * as.length + 1)) s t ∧ AttemptsFailed (List.replicate n as).flatten s t ∧
      t.script = attemptLines as ∧ t.rxq = [] := by
  induction n generalizing s with
  | zero => exact ⟨s, (Nat.zero_mul _).symm ▸ .nil s, .nil hst, hscript, hempty⟩
  | succ n ih =>
    obtain ⟨u, hround, hfailed, huscript, huqueue⟩ := loopPath_round hinvoke hst hempty hdiffer has has hscript hending
    obtain ⟨t, hloop, hall, htscript, htqueue⟩ :=
      ih (hfailed.invoke.trans hinvoke) hfailed.st huqueue huscript (hfailed.ending.trans hending)
    exact ⟨t, hround.trans hloop (by rw [Nat.succ_mul, Nat.add_comm]), hfailed.trans hall, htscript, htqueue⟩

end

/-- Settles O54: every number of steps is within some number of rounds, and a round is a path within the loop. -/
theorem mismatchingForeverNeverEnds : Obligations.MismatchingForeverNeverEnds := by
  intro s as hinvoke hst hempty has hdiffer hscript hending
  have hrounds := loopPath_rounds hinvoke hst hempty hdiffer has hscript hending
  refine ⟨fun m => ?_, fun n => ?_⟩
  · obtain ⟨t, hpath, hfailed, -⟩ := hrounds m
    exact hpath.looping (.inl hfailed.st) (Nat.le_mul_of_pos_right m (Nat.succ_pos _))
  · obtain ⟨t, hpath, hfailed, htscript, htqueue⟩ := hrounds n
    have hlen : (List.replicate n as).flatten.length = n * as.length := by simp
    have hretry := hfailed.retry
    have hevents := hfailed.events
    rw [hlen] at hretry hevents
    exact ⟨t, hpath.run, hfailed.st, hretry, htqueue, htscript.trans hscript.symm, hfailed.tx, hevents⟩

end Sys2Proof.Machine

/-! The retry count law for every cycle that ends (R100): an invariant of the steps of a cycle, whatever the environment does
between them. -/

namespace Sys2Proof.Machine

section

/-! The block's turn in each state of a cycle. -/

variable {s t : State} (h : blockStep s = .next t)

include h

theorem blockStep_of_sending (hst : s.st = .sending) :
    ∃ v o sc n, t = afterSend v o { s with script := sc, freeCount := n } := by
  simpa [hst] using blockStep_next h

theorem blockStep_of_awaitingReply (hst : s.st = .awaitingReply) :
    (s.rxcnt < 8 ∧ ∃ k sc n, t = afterRecv k { s with script := sc, freeCount := n }) ∨
    (s.rxcnt = 8 ∧ t = { takeTurn s with st := if s.rxbuf.b7 = s.pkt.b7 then .verified else .retrying }) := by
  simpa [hst] using blockStep_next h

theorem blockStep_of_verified (hst : s.st = .verified) : t = afterDeliver (takeTurn s) := by
  simpa [hst] using blockStep_next h

theorem blockStep_of_retrying (hst : s.st = .retrying) : t = afterRetry (takeTurn s) := by
  simpa [hst] using blockStep_next h

end

/-- The cycle of command `cmd` in progress in `s`: `sends` SENDs were made and `got` are the bytes that its replies were
taken from, those still queued included. -/
inductive CycleAt (cmd : State) (sends : Nat) (got : List Byte) (s : State) : Prop
  /-- The next SEND is due; every attempt so far has failed. -/
  | sending (failed : List Attempt) (hdiffer : ∀ a ∈ failed, a.accepted = false) (hfailed : AttemptsFailed failed cmd s)
      (hsends : sends = failed.length) (hgot : got = attemptReplies failed ++ s.rxq)
  /-- An attempt, begun in `p`, waits for its reply. -/
  | receiving (failed : List Attempt) (p : State) (v : Draw) (hdiffer : ∀ a ∈ failed, a.accepted = false)
      (hfailed : AttemptsFailed failed cmd p) (hopen : AttemptOpen v p s) (hst : s.st = .awaitingReply)
      (hsends : sends = failed.length + 1) (hgot : got = attemptReplies failed ++ replyBytes s)
  /-- The reply of attempt `a`, begun in `p`, is judged. -/
  | judged (failed : List Attempt) (p : State) (a : Attempt) (hdiffer : ∀ a ∈ failed, a.accepted = false)
      (hfailed : AttemptsFailed failed cmd p) (hopen : AttemptOpen a.draw p s)
      (hst : s.st = if a.accepted then .verified else .retrying) (hreply : s.rxbuf = a.reply)
      (hsends : sends = failed.length + 1) (hgot : got = attemptReplies (failed ++ [a]) ++ s.rxq)
  /-- A write has failed. -/
  | fatal (hst : s.st = .fatal) (hinvoke : s.invoke = none)

/-- The cycle of command `cmd` has ended in `s` as the retry count law says (R100). -/
def CycleEnded (cmd : State) (sends : Nat) (got : List Byte) (s : State) : Prop :=
  ∃ failed last, (∀ a ∈ failed, a.accepted = false) ∧ last.accepted = true ∧ sends = failed.length + 1 ∧
    got = attemptReplies (failed ++ [last]) ++ s.rxq ∧ CycleDone cmd failed last s

namespace CycleAt

variable {cmd s t : State} {sends : Nat} {got : List Byte}

theorem st_ne_idle (h : CycleAt cmd sends got s) : s.st ≠ .idle := by
  cases h with
  | sending failed hdiffer hfailed hsends hgot => simp [hfailed.st]
  | receiving failed p v hdiffer hfailed hopen hst hsends hgot => simp [hst]
  | judged failed p a hdiffer hfailed hopen hst hreply hsends hgot => rw [hst]; split <;> nofun
  | fatal hst hinvoke => simp [hst]

theorem invoke (h : CycleAt cmd sends got s) (hcmd : cmd.invoke = none) : s.invoke = none := by
  cases h with
  | sending failed hdiffer hfailed hsends hgot => exact hfailed.invoke.trans hcmd
  | receiving failed p v hdiffer hfailed hopen hst hsends hgot =>
    exact hopen.invoke.trans (hfailed.invoke.trans hcmd)
  | judged failed p a hdiffer hfailed hopen hst hreply hsends hgot =>
    exact hopen.invoke.trans (hfailed.invoke.trans hcmd)
  | fatal hst hinvoke => exact hinvoke

/-- The environment's moves add to the bytes that replies are taken from and touch nothing else of the cycle (R46). -/
theorem ports (h : CycleAt cmd sends got s) (es : List EnvInput) (n : Nat) (o : Option Snapshot) (c : List Byte) :
    CycleAt cmd sends (got ++ c) { s with script := es, freeCount := n, offer := o, rxq := s.rxq ++ c } := by
  cases h with
  | sending failed hdiffer hfailed hsends hgot =>
    exact .sending failed hdiffer { hfailed with } hsends (by rw [hgot, List.append_assoc])
  | receiving failed p v hdiffer hfailed hopen hst hsends hgot =>
    exact .receiving failed p v hdiffer hfailed { hopen with } hst hsends
      (by simp only [hgot, replyBytes, List.append_assoc])
  | judged failed p a hdiffer hfailed hopen hst hreply hsends hgot =>
    exact .judged failed p a hdiffer hfailed { hopen with } hst hreply hsends (by rw [hgot, List.append_assoc])
  | fatal hst hinvoke => exact .fatal hst hinvoke

/-- SEND opens an attempt, or its write fails (R92). -/
theorem afterSend {failed : List Attempt} (hdiffer : ∀ a ∈ failed, a.accepted = false)
    (hfailed : AttemptsFailed failed cmd s) (hcmd : cmd.invoke = none) (v : Draw) (o : WriteOutcome)
    (es : List EnvInput) (n : Nat) :
    CycleAt cmd (failed.length + 1) (attemptReplies failed ++ s.rxq)
      (afterSend v o { s with script := es, freeCount := n }) := by
  cases o with
  | ok => exact .receiving failed s v hdiffer hfailed (.of_send v s es n) rfl rfl rfl
  | fail j => exact .fatal rfl (hfailed.invoke.trans hcmd)

/-- RECV moves bytes of the reply, VERIFY judges it when it is complete (R93, R94). -/
theorem awaiting {failed : List Attempt} {p : State} {v : Draw} (hdiffer : ∀ a ∈ failed, a.accepted = false)
    (hfailed : AttemptsFailed failed cmd p) (hopen : AttemptOpen v p s) (hst : s.st = .awaitingReply)
    (h : blockStep s = .next t) :
    CycleAt cmd (failed.length + 1) (attemptReplies failed ++ replyBytes s) t := by
  obtain ⟨hlt, k, sc, n, rfl⟩ | ⟨hfull, rfl⟩ := blockStep_of_awaitingReply h hst
  · have hbytes := replyBytes_afterRecv (s := { s with script := sc, freeCount := n }) (Nat.le_of_lt hlt) k
    exact .receiving failed p v hdiffer hfailed { hopen with } hst rfl (hbytes ▸ rfl)
  · refine .judged failed p ⟨v, s.rxbuf⟩ hdiffer hfailed { hopen with } ?_ rfl rfl ?_
    · simp only [Attempt.accepted_iff, hopen.pkt]
    · rw [attemptReplies_append, attemptReplies_singleton, List.append_assoc, replyBytes, hfull]
      rfl

/-- The block's turn in a cycle: one more SEND, or none, and the cycle goes on or has ended. -/
theorem blockStep (hcycle : CycleAt cmd sends got s) (hcmd : cmd.invoke = none) (h : blockStep s = .next t) :
    CycleAt cmd (sends + if s.st == .sending then 1 else 0) got t ∨
    CycleEnded cmd (sends + if s.st == .sending then 1 else 0) got t := by
  cases hcycle with
  | sending failed hdiffer hfailed hsends hgot =>
    obtain ⟨v, o, sc, n, rfl⟩ := blockStep_of_sending h hfailed.st
    rw [hfailed.st, hsends, hgot]
    exact .inl (afterSend hdiffer hfailed hcmd v o sc n)
  | receiving failed p v hdiffer hfailed hopen hst hsends hgot =>
    rw [hst, hsends, hgot]
    exact .inl (awaiting hdiffer hfailed hopen hst h)
  | judged failed p a hdiffer hfailed hopen hst hreply hsends hgot =>
    have hturn : AttemptOpen a.draw p (takeTurn s) := { hopen with }
    cases ha : a.accepted <;> rw [ha] at hst
    case false =>
      rw [blockStep_of_retrying h hst, hst, hsends]
      refine .inl (.sending (failed ++ [a]) ?_ (hfailed.trans (hturn.failed a.reply)) (by simp) hgot)
      simpa [or_imp, forall_and, ha] using hdiffer
    case true =>
      rw [blockStep_of_verified h hst, hst, hsends]
      exact .inr ⟨failed, a, hdiffer, ha, rfl, hgot, hfailed.deliver hturn hreply⟩
  | fatal hst hinvoke => simp [blockStep_fatal hst] at h

/-- A step in a cycle, the environment's moves included. -/
theorem step (hcycle : CycleAt cmd sends got s) (hcmd : cmd.invoke = none) (h : step s = .next t)
    (hreset : resetNext s = false) :
    CycleAt cmd (sends + if blockTurn s && s.st == .sending then 1 else 0) (got ++ arriving s) t ∨
    CycleEnded cmd (sends + if blockTurn s && s.st == .sending then 1 else 0) (got ++ arriving s) t := by
  obtain ⟨hturn, hmove⟩ | ⟨hturn, hblock⟩ := step_next_cases (hcycle.invoke hcmd) h
  · obtain ⟨es, n, ht, -⟩ := envMove_ports hmove hreset
    rw [hturn, ht]
    exact .inl (hcycle.ports es n t.offer (arriving s))
  · rw [hturn, Bool.true_and, arriving_blockTurn hturn, List.append_nil]
    exact hcycle.blockStep hcmd hblock

end CycleAt

/-- Only a CYCLE_START leads from `Idle` to `Sending` (R90, R91). -/
theorem step_idle_sending {s t : State} (hinvoke : s.invoke = none) (hidle : s.st = .idle) (hsending : t.st = .sending)
    (h : step s = .next t) (hreset : resetNext s = false) :
    blockTurn s = true ∧ ∃ sn, t = afterCycleStart sn { takeTurn s with offer := none } := by
  obtain ⟨-, hmove⟩ | ⟨hturn, hblock⟩ := step_next_cases hinvoke h
  · obtain ⟨es, n, ht, -⟩ := envMove_ports hmove hreset
    rw [ht] at hsending
    cases hidle.symm.trans hsending
  · obtain ⟨-, -, rfl⟩ | ⟨-, sn, -, ht⟩ | ⟨hst, -⟩ | ⟨hst, -⟩ | ⟨hst, -⟩ | ⟨hst, -⟩ | ⟨hst, -⟩ := blockStep_next hblock
    · cases hidle.symm.trans hsending
    · exact ⟨hturn, sn, ht⟩
    all_goals cases hidle.symm.trans hst

/-- Settles O51: CYCLE_START establishes the invariant `CycleAt`, every step before the return to `Idle` keeps it, and the
step that returns there ends the cycle. -/
theorem completedCycleObeysRetryCountLaw : Obligations.CompletedCycleObeysRetryCountLaw := by
  intro n σ hinvoke hidle hsending hsteps hn hbusy hend
  obtain ⟨hstart, hreset⟩ := hsteps 0 (by omega)
  obtain ⟨hturn, sn, hcmd⟩ := step_idle_sending hinvoke hidle hsending hstart hreset
  have hcmdinvoke : (σ 1).invoke = none := by simp [hcmd, hinvoke]
  have hone : CycleAt (σ 1) (sendCount σ 1) ((σ 0).rxq ++ arrivals σ 1) (σ 1) := by
    refine .sending [] nofun (.nil hsending) ?_ ?_
    · simp [sendCount, hidle]
    · simp [arrivals, arriving_blockTurn hturn, attemptReplies, hcmd]
  have hstep {k : Nat} (hk : k < n) (hat : CycleAt (σ 1) (sendCount σ k) ((σ 0).rxq ++ arrivals σ k) (σ k)) :
      CycleAt (σ 1) (sendCount σ (k + 1)) ((σ 0).rxq ++ arrivals σ (k + 1)) (σ (k + 1)) ∨
      CycleEnded (σ 1) (sendCount σ (k + 1)) ((σ 0).rxq ++ arrivals σ (k + 1)) (σ (k + 1)) := by
    rw [sendCount_succ, arrivals_succ, ← List.append_assoc]
    exact hat.step hcmdinvoke (hsteps k hk).1 (hsteps k hk).2
  have hcycle : ∀ k, k + 1 < n → CycleAt (σ 1) (sendCount σ (k + 1)) ((σ 0).rxq ++ arrivals σ (k + 1)) (σ (k + 1)) := by
    intro k
    induction k with
    | zero => exact fun _ => hone
    | succ k ih =>
      intro hk
      obtain hat | ⟨_, _, -, -, -, -, hdone⟩ := hstep (by omega) (ih (by omega))
      · exact hat
      · exact absurd hdone.st (hbusy _ (by omega) hk)
  obtain ⟨m, rfl⟩ : ∃ m, n = m + 1 + 1 := ⟨n - 2, by omega⟩
  obtain hat | ⟨failed, last, hdiffer, haccepted, hsends, hgot, hdone⟩ := hstep (by omega) (hcycle m (by omega))
  · exact absurd hend hat.st_ne_idle
  · refine ⟨failed, last, hdiffer, haccepted, hsends, ?_, ?_, hgot, ?_, hdone.latch, hdone.prev⟩
    · simpa [hcmd] using hdone.retry
    · simpa [hcmd] using hdone.tx
    · simpa [hcmd, retryWarningsFrom_zero] using hdone.events

end Sys2Proof.Machine

/-! The Reply Decoder (R110, R111): DECODE's step, and the encoder of status records that inverts it. -/

namespace Sys2Proof.Machine

/-- DECODE is enabled in every state and writes none of it (R110, R111). -/
theorem exec_decode (r : Frame) (s : State) :
    exec (.decode r) s = .next { s with ret := some (.status (statusOf r)) } := rfl

/-- Which record DECODE answers says which record the reply holds. -/
theorem exec_decode_eq_next_iff {r : Frame} {s : State} {rec : StatusRecord} :
    exec (.decode r) s = .next { s with ret := some (.status rec) } ↔ statusOf r = rec := by
  constructor
  · intro h
    rw [exec_decode] at h
    have hstate := Host.Outcome.next.inj h
    simpa using congrArg State.ret hstate
  · rintro rfl
    exact exec_decode r s

/-- The reply a status record stands for: `auger` at offset 2 and `rail` at offset 3, as in `F-RPL` (R41, R56). -/
def replyOf (rec : StatusRecord) : Frame where
  b0 := rec.leftVel
  b1 := rec.rightVel
  b2 := rec.auger
  b3 := rec.rail
  b4 := rec.dump
  b5 := rec.reserved1
  b6 := rec.reserved2
  b7 := rec.verification

@[simp] theorem replyOf_statusOf (r : Frame) : replyOf (statusOf r) = r := rfl

@[simp] theorem statusOf_replyOf (rec : StatusRecord) : statusOf (replyOf rec) = rec := rfl

/-- Replies and status records determine each other (R111). -/
theorem statusOf_bijective : Function.Bijective statusOf :=
  Function.bijective_iff_has_inverse.2 ⟨replyOf, replyOf_statusOf, statusOf_replyOf⟩

/-- Settles O28: DECODE's record is `statusOf` of the reply, a bijection with inverse `replyOf`. -/
theorem decodeIsBijective : Obligations.DecodeIsBijective := by
  intro s rec
  simpa only [exec_decode_eq_next_iff] using statusOf_bijective.existsUnique rec

/-- Settles O27: the record is `statusOf` of the reply, whose fields are the bytes named. -/
theorem decodeMapsOffsetsToFields : Obligations.DecodeMapsOffsetsToFields := fun s r =>
  ⟨statusOf r, exec_decode r s, rfl, rfl, rfl, rfl, rfl, rfl, rfl, rfl⟩

end Sys2Proof.Machine

/-! The conditions (R120 to R122, R125): which operations record one, and the reply that records none. -/

namespace Sys2Proof.Machine

/-- Settles O22: VERIFY finds the bytes at offset 7 equal and looks at no others, and DELIVER emits the record of the reply
held. -/
theorem matchingReplyIsDeliveredAsIs : Obligations.MatchingReplyIsDeliveredAsIs := by
  rintro s _ hst hfull rfl hmatch
  have hverify : exec .verify s = .next { s with st := .verified } := by
    rw [exec_verify_of_full hst hfull, if_pos hmatch]
  simp only [execAll, hverify, exec_deliver_of_verified (s := { s with st := .verified }) rfl]
  rfl

/-- VERIFY records `E_MISMATCH` when the reply differs, and nothing otherwise (R94, R122). -/
theorem condition_afterVerify (s : State) :
    condition { s with st := if s.rxbuf.b7 = s.pkt.b7 then .verified else .retrying } =
      if s.rxbuf.b7 = s.pkt.b7 then none else some .eMismatch := by
  by_cases hmatch : s.rxbuf.b7 = s.pkt.b7
  · rw [if_pos hmatch, if_pos hmatch]
    rfl
  · rw [if_neg hmatch, if_neg hmatch]
    rfl

/-- An operation that is neither a SEND nor a VERIFY records no condition: it leads to `Idle` or `Sending`, or leaves `ST`
as it was (R120). -/
theorem condition_none_of_exec {i : Instr} {s t : State} (h : exec i s = .next t) (hnone : condition s = none)
    (hsend : i.row ≠ .send) (hverify : i.row ≠ .verify) : condition t = none := by
  cases i with
  | cycleStart sn => obtain ⟨-, rfl⟩ := execCycleStart_next.1 h; rfl
  | send v o => exact absurd rfl hsend
  | recv k => obtain ⟨-, rfl⟩ := execRecv_next.1 h; exact hnone
  | verify => exact absurd rfl hverify
  | deliver => obtain ⟨-, rfl⟩ := execDeliver_next.1 h; rfl
  | retry => obtain ⟨-, rfl⟩ := execRetry_next.1 h; rfl
  | encode | drive | encLdrive | encRdrive | pair | encAuger | encToggle | encRail | encZero | decode =>
    obtain ⟨r, l, p, rfl, -⟩ := exec_function_next rfl h
    exact hnone

/-- Settles O26: a SEND records `E_WRITE` or nothing, by its write outcome; a VERIFY records `E_MISMATCH` or nothing, by its
comparison; every other operation records nothing. -/
theorem conditionsArePreciselyRaised : Obligations.ConditionsArePreciselyRaised := by
  intro i s t h hnone
  cases i with
  | send v o =>
    obtain ⟨-, rfl⟩ := execSend_next.1 h
    cases o with
    | ok => simp [condition, afterSend]
    | fail j => simp [condition, afterSend]
  | verify =>
    obtain ⟨-, rfl⟩ := execVerify_next.1 h
    rw [condition_afterVerify]
    by_cases hmatch : s.rxbuf.b7 = s.pkt.b7 <;> simp [hmatch]
  | cycleStart | recv | deliver | retry | encode | drive | encLdrive | encRdrive | pair | encAuger | encToggle | encRail
  | encZero | decode =>
    rw [condition_none_of_exec h hnone nofun nofun]
    simp

end Sys2Proof.Machine

/-! The wait for a reply (R99, R127, R145): what a step in `AwaitingReply` can do before eight bytes are held, and that
without a byte arriving it does nothing, for ever. -/

namespace Sys2Proof.Machine

/-- Settles O42: the step is a move of the environment, which writes no register, or a RECV. -/
theorem awaitingReplyIsLeftOnlyWithFullReply : Obligations.AwaitingReplyIsLeftOnlyWithFullReply := by
  intro s t hinvoke hst hlt hreset hstep
  obtain ⟨-, hmove⟩ | ⟨-, hblock⟩ := step_next_cases hinvoke hstep
  · obtain ⟨es, n, ht, -⟩ := envMove_ports hmove hreset
    rw [ht]
    exact ⟨hst, rfl, rfl, Nat.le_refl _, Nat.le_of_lt hlt⟩
  · obtain ⟨-, k, sc, n, rfl⟩ | ⟨hfull, -⟩ := blockStep_of_awaitingReply hblock hst
    · obtain ⟨hle, hle8, -⟩ := afterRecv_rxq (s := { s with script := sc, freeCount := n }) k hlt
      exact ⟨hst, rfl, rfl, hle, hle8⟩
    · exact absurd hfull (Nat.ne_of_lt hlt)

/-- Taking the turn takes script entries off and adds none (log 6). -/
theorem afterTurn_subset (es : List EnvInput) : afterTurn es ⊆ es := by
  unfold afterTurn
  split
  · exact List.subset_cons_self ..
  · exact List.Subset.refl _

/-- RECV's answer takes script entries off and adds none, and changes the counter of free values besides (R37, log 9). -/
theorem readAnswer_state_subset (s : State) :
    ∃ sc n, (readAnswer s).2 = { s with script := sc, freeCount := n } ∧ sc ⊆ s.script := by
  unfold readAnswer
  split
  next k rest hscript => exact ⟨rest, s.freeCount, rfl, hscript ▸ List.subset_cons_self ..⟩
  next => exact ⟨s.script, s.freeCount + 1, rfl, List.Subset.refl _⟩

/-- A reply is incomplete, no byte is queued, and none will arrive: the environment grants turns and answers reads only, and
ends with its script or begins again with the lines `es` (R127, R145). -/
structure SilentWait (es : List EnvInput) (s : State) : Prop where
  invoke : s.invoke = none
  ending : s.ending = .silent ∨ s.ending = .again es
  entries : ∀ e ∈ s.script ++ es, e = .turn ∨ ∃ k, e = .read k
  st : s.st = .awaitingReply
  incomplete : s.rxcnt < 8
  rxq : s.rxq = []

namespace SilentWait

variable {es : List EnvInput} {s : State}

/-- The wait goes on with any script that brings no other entries. -/
theorem of_subset (h : SilentWait es s) {sc : List EnvInput} (hsc : sc ⊆ s.script ++ es) (n : Nat) :
    SilentWait es { s with script := sc, freeCount := n } where
  invoke := h.invoke
  ending := h.ending
  entries e he := by
    obtain he | he := List.mem_append.1 he
    · exact h.entries e (hsc he)
    · exact h.entries e (List.mem_append_right _ he)
  st := h.st
  incomplete := h.incomplete
  rxq := h.rxq

/-- The one move the environment can make is to begin its lines again. -/
theorem envMove (h : SilentWait es s) : envMove s = none ∨ envMove s = some { s with script := es } := by
  cases hscript : s.script with
  | nil =>
    obtain hend | hend := h.ending
    · exact .inl (by simp [Machine.envMove, moreLines, hscript, hend])
    · exact .inr (by simp [Machine.envMove, moreLines, hscript, hend])
  | cons e rest =>
    obtain rfl | ⟨k, rfl⟩ := h.entries e (by simp [hscript])
    all_goals exact .inl (by simp [Machine.envMove, hscript])

/-- The block's turn is an empty read, which changes no register and no output (R38, R124). -/
theorem blockStep (h : SilentWait es s) :
    ∃ sc n, blockStep s = .next { s with script := sc, freeCount := n } ∧ sc ⊆ s.script := by
  obtain ⟨sc, n, hanswer, hsc⟩ := readAnswer_state_subset (takeTurn s)
  have hfetch : fetch (takeTurn s) = .run (.recv (readAnswer (takeTurn s)).1) (readAnswer (takeTurn s)).2 :=
    fetch_recv (by simp [decodeDispatch_dispatchWord, h.st, Nat.ne_of_lt h.incomplete])
  refine ⟨sc, n, ?_, List.Subset.trans hsc (afterTurn_subset s.script)⟩
  simp only [Machine.blockStep, hfetch, hanswer]
  exact emptyReadIsStutter { s with script := sc, freeCount := n } _ h.st h.incomplete (.inr h.rxq)

/-- A step of the wait leads to the wait, and changes only the script and the counter of free values. -/
theorem step (h : SilentWait es s) :
    ∃ sc n, step s = .next { s with script := sc, freeCount := n } ∧
      SilentWait es { s with script := sc, freeCount := n } := by
  obtain hmove | hmove := h.envMove
  · obtain ⟨sc, n, hblock, hsc⟩ := h.blockStep
    have hturn : blockTurn s = true := by simp [blockTurn, h.invoke, hmove]
    exact ⟨sc, n, (step_blockTurn hturn).trans hblock, h.of_subset (List.subset_append_of_subset_left _ hsc) n⟩
  · exact ⟨es, s.freeCount, step_envMove h.invoke hmove, h.of_subset (List.subset_append_right ..) _⟩

/-- Any number of steps of the wait, by induction on the number. -/
theorem run (n : Nat) (h : SilentWait es s) :
    ∃ t, run n s = .next t ∧ t = { s with freeCount := t.freeCount, script := t.script } := by
  induction n generalizing s with
  | zero => exact ⟨s, rfl, rfl⟩
  | succ n ih =>
    obtain ⟨sc, m, hstep, hwait⟩ := h.step
    obtain ⟨t, hrun, ht⟩ := ih hwait
    exact ⟨t, (run_step n hstep).trans hrun, ht⟩

end SilentWait

/-- Settles O41: the premises are a `SilentWait`, which every step keeps. -/
theorem silentLinkHangs : Obligations.SilentLinkHangs := fun _ _ n hinvoke hending hentries hst hlt hrxq =>
  SilentWait.run n ⟨hinvoke, hending, hentries, hst, hlt, hrxq⟩

end Sys2Proof.Machine

/-! Reset and hazards (R140, R143, R147): the reset input, the first packet after it, and stray bytes ahead of a reply. -/

namespace Sys2Proof.Machine

/-- From a cleared latch state the next latch is the button (R75, R143). -/
theorem latchNext_cleared (btn : Bool) : latchNext false false btn = btn := by
  cases btn with
  | true => exact latchNext_rising false
  | false => exact latchNext_released false false

/-- In `Idle` no step transmits: neither a move of the environment nor the block's turn, which is no SEND (R42, R90). -/
theorem step_tx_of_idle {s t : State} (hinvoke : s.invoke = none) (hidle : s.st = .idle) (h : step s = .next t) :
    t.tx = s.tx := by
  obtain ⟨-, hmove⟩ | ⟨-, hblock⟩ := step_next_cases hinvoke h
  · exact envMove_tx hmove
  · obtain ⟨-, htx⟩ | ⟨hsending, -⟩ := blockStep_tx hblock
    · exact htx
    · cases hidle.symm.trans hsending

/-- Settles O14: `RAIL` bit 4 is the next latch, which the button alone decides when LATCH and PREV are 0. -/
theorem firstPacketCarriesHeldButton : Obligations.FirstPacketCarriesHeldButton := by
  intro s sn hidle hlatch hprev
  refine ⟨⟨afterCycleStart sn s, exec_cycleStart_of_idle hidle sn, ?_, afterCycleStart_tx sn s⟩,
    fun t hinvoke hstep => step_tx_of_idle hinvoke hidle hstep⟩
  rw [afterCycleStart_pkt, hlatch, hprev, latchNext_cleared]
  exact railByte_latch sn sn.toggleBtn

/-- Eight bytes are the bytes of a frame: the one they are written to from offset 0 up. -/
theorem exists_frame_toList_eq {bs : List Byte} (h : bs.length = 8) : ∃ f : Frame, f.toList = bs := by
  have hwritten := writeFrom_take default 0 bs (by omega)
  rw [Nat.zero_add, h, List.take_of_length_le (Nat.le_refl 8)] at hwritten
  exact ⟨_, hwritten⟩

/-- Settles O24: the stray bytes and the head of the reply are a frame at the head of RXQ, which one read of 8 takes whole. -/
theorem strayBytesShiftTheFrame : Obligations.StrayBytesShiftTheFrame := by
  intro s stray reply later hst hempty _ hstray hreply hqueue
  obtain ⟨f, hf⟩ : ∃ f : Frame, f.toList = stray ++ reply.take (8 - stray.length) :=
    exists_frame_toList_eq (by rw [List.length_append, List.length_take]; omega)
  have hframe : s.rxq = f.toList ++ (reply.drop (8 - stray.length) ++ later) := by
    calc s.rxq
      _ = stray ++ reply ++ later := hqueue
      _ = stray ++ (reply.take (8 - stray.length) ++ reply.drop (8 - stray.length)) ++ later := by
        rw [List.take_append_drop]
      _ = f.toList ++ (reply.drop (8 - stray.length) ++ later) := by simp only [hf, List.append_assoc]
  obtain ⟨hfull, hbuf, hrest⟩ := afterRecv_whole hempty hframe
  exact ⟨afterRecv 8 s, exec_recv_of_awaitingReply hst (by omega) 8, hfull, by rw [hbuf, hf], hrest,
    by rw [List.length_drop]; omega⟩

/-- Settles O34: the reset input is the step, and `Idle` dispatches CYCLE_START whatever RXCNT is. -/
theorem resetInputRestoresRegisters : Obligations.ResetInputRestoresRegisters := by
  intro s rest hinvoke hscript
  refine ⟨applyReset { s with script := rest }, step_reset hinvoke hscript, rfl, rfl, rfl, rfl, rfl, rfl, rfl, rfl, rfl,
    rfl, rfl, ?_⟩
  rw [decodeDispatch_dispatchWord, applyReset_st]

end Sys2Proof.Machine
